-- ==== Sys2Proof/Word.lean ====
section
/-! DEFINITION. The word types of PicoK7 CORE, the events, and the words that travel on the block's ports
(`30_encoding.md`). -/

namespace Sys2Proof

/-- A byte: an entry of TXQ, a byte of a tape image or of a program name (R11, R42, R45). -/
abbrev Byte := BitVec 8

/-- An encoder sample SMP = {current, previous} (R63). -/
abbrev Sample := BitVec 4

/-- A phase value PHV = {A, B} (R62). -/
abbrev PhaseValue := BitVec 2

/-- An event code EVC (R65). -/
abbrev EventCode := BitVec 2

/-- `KeyEvent`, "one of a closed set {UP, DOWN, ENTER}" (R65). -/
inductive KeyEvent
  | up
  | down
  | enter
deriving DecidableEq, Repr

/-- The agents of R6, the synchroniser of R123 and the environment that drives `rst` (R152). -/
inductive Agent
  | host
  | pte
  | sampler
  | qdec
  | deb
  | synchroniser
  | environment
deriving DecidableEq, Repr

/-- A word on one of the block's ports. "The width of a word is fixed by the port it travels on, so no decoder has to
find a length" (R60): each constructor is a port and carries a word of that port's width. Operations that the table
gives no word are selected by the port alone; the two host procedures carry their operands (R72). -/
inductive PortWord
  /-- `TXW = {tx_valid, tx_data[7:0]}` (R61). -/
  | txw (w : BitVec 9)
  /-- A read of `tx_busy` (R79). -/
  | txBusy
  /-- The HOST idiom DRAIN_WAIT (R80). -/
  | drainWait
  /-- The pulse-tick strobe (R81). -/
  | pulse (w : BitVec 1)
  /-- `PHV`, the new levels of the phase lines (R62, R97). -/
  | phv (w : BitVec 2)
  /-- `SMP`, the sample QDEC takes (R63, R99). -/
  | smp (w : BitVec 4)
  /-- `DBW = {deb_tick, sw_level}` (R64). -/
  | dbw (w : BitVec 2)
  /-- `EVC` on the publish path (R65, R114). -/
  | evc (w : BitVec 2)
  /-- `POPW = ev_pop` (R66). -/
  | popw (w : BitVec 1)
  /-- The synchroniser step SYNC_R (R123). -/
  | syncR
  /-- The synchroniser step SYNC_W (R123). -/
  | syncW
  /-- A call of VALIDATE with `buf` and its filled length `n` (R126). -/
  | validate (buf : List Byte) (n : Nat)
  /-- A call of SEND with `name`, `buf` and `n` (R130). -/
  | send (name buf : List Byte) (n : Nat)
  /-- The level of `rst` (R152). -/
  | rst (w : BitVec 1)
deriving DecidableEq, Repr

end Sys2Proof
end

