-- ==== Sys2Proof/Syntax.lean ====
section
/-! DEFINITION. The operations of PicoK7 CORE, one constructor per row of the operation table (R72). -/

namespace Sys2Proof

/-- An operation: "either a transaction on one of the block's ports or an internal clocked step of one of its agents,
plus two host procedures and one host idiom" (R5). -/
inductive Instr
  /-- ENQUEUE(d) (R78). -/
  | enqueue (d : Byte)
  /-- TX_NOREQ: a TXW with `v = 0`; the bits `x` mean nothing (R78). -/
  | txNoreq (x : Byte)
  /-- IS_DRAINING (R79). -/
  | isDraining
  /-- DRAIN_WAIT (R80). -/
  | drainWait
  /-- PTE_TICK (R81). -/
  | pteTick
  /-- SMP_CAPTURE(a, b) (R97). -/
  | smpCapture (a b : Bool)
  /-- QDEC_STEP on the sample `0x0` (R99), and so on for the fifteen other values. -/
  | qdecNone0
  | qdecNone1
  | qdecNone2
  | qdecNone3
  /-- QDEC_STEP on `0x4`, class INCREASE (R100). -/
  | qdecIncrease
  | qdecNone5
  | qdecNone6
  | qdecNone7
  | qdecNone8
  | qdecNone9
  | qdecNoneA
  /-- QDEC_STEP on `0xB`, class DECREASE (R100). -/
  | qdecDecrease
  | qdecNoneC
  | qdecNoneD
  | qdecNoneE
  | qdecNoneF
  /-- DEB_TICK(s) (R105). -/
  | debTick (s : Bool)
  /-- DEB_NOTICK: a DBW with `t = 0`; the bit `x` means nothing (R105). -/
  | debNotick (x : Bool)
  /-- PUBLISH(UP) (R114). -/
  | publishUp
  /-- PUBLISH(DOWN) (R114). -/
  | publishDown
  /-- PUBLISH(ENTER) (R114). -/
  | publishEnter
  /-- POLL (R115). -/
  | poll
  /-- NOPOLL: `ev_pop = 0`, a peek at most (R115). -/
  | noPoll
  /-- SYNC_R (R123). -/
  | syncR
  /-- SYNC_W (R123). -/
  | syncW
  /-- VALIDATE(buf, n) (R126). -/
  | validate (buf : List Byte) (n : Nat)
  /-- SEND(name, buf, n) (R130). -/
  | send (name buf : List Byte) (n : Nat)
  /-- RESET (R152). -/
  | reset
deriving DecidableEq, Repr

end Sys2Proof
end

