-- ==== Sys2Proof/Decode.lean ====
section
/-! DEFINITION. From the word on a port to the operation it selects, and back (`30_encoding.md`). -/

namespace Sys2Proof

/-- Why a word selects no operation and is turned away. -/
inductive DecodeError
  /-- EVC `0b00` "is not an event. PUBLISH is never performed with it" (R74). -/
  | noneEventCode
deriving DecidableEq, Repr

/-- What a word means. -/
inductive Decoded
  /-- It selects an operation. -/
  | op (i : Instr)
  /-- A strobe or `rst` that is low: nothing happens on that port this cycle (R81, R152). -/
  | quiet
  /-- It is turned away by name. -/
  | rejected (e : DecodeError)
deriving DecidableEq, Repr

/-! ### The event codes (R65) -/

/-- The code of an event: `0b01` UP, `0b10` DOWN, `0b11` ENTER (R65). -/
def KeyEvent.code : KeyEvent → EventCode
  | .up => 0b01#2
  | .down => 0b10#2
  | .enter => 0b11#2

/-- The event a code stands for; `0b00` is none (R65). -/
def eventOfCode (c : EventCode) : Option KeyEvent :=
  if c = 0b01#2 then some .up else if c = 0b10#2 then some .down else if c = 0b11#2 then some .enter else none

/-! ### Decoding, port by port -/

/-- `TXW`: bit 8 is `v`, bits 7:0 are `d` (R61). -/
def decodeTxw (w : BitVec 9) : Instr :=
  if w.msb then .enqueue (w.setWidth 8) else .txNoreq (w.setWidth 8)

/-- `PHV`: bit 1 is line A, bit 0 is line B (R62). -/
def decodePhv (w : BitVec 2) : Instr := .smpCapture w.msb (w.getLsbD 0)

/-- The sixteen rows of R73, the row of sample `x` at place `x`. -/
def qdecRows : Vector Instr 16 :=
  #v[.qdecNone0, .qdecNone1, .qdecNone2, .qdecNone3, .qdecIncrease, .qdecNone5, .qdecNone6, .qdecNone7,
    .qdecNone8, .qdecNone9, .qdecNoneA, .qdecDecrease, .qdecNoneC, .qdecNoneD, .qdecNoneE, .qdecNoneF]

/-- `SMP`: the row of the sample (R63, R73). -/
def decodeSmp (w : BitVec 4) : Instr := qdecRows[w.toNat]'(w.isLt)

/-- `DBW`: bit 1 is `t`, bit 0 is `s` (R64). -/
def decodeDbw (w : BitVec 2) : Instr :=
  if w.msb then .debTick (w.getLsbD 0) else .debNotick (w.getLsbD 0)

/-- The PUBLISH of an event (R114). -/
def publishInstr : KeyEvent → Instr
  | .up => .publishUp
  | .down => .publishDown
  | .enter => .publishEnter

/-- `EVC`: one of the three event codes; `0b00` is turned away (R65, R74). -/
def decodeEvc (w : BitVec 2) : Decoded :=
  match eventOfCode w with
  | some e => .op (publishInstr e)
  | none => .rejected .noneEventCode

/-- `POPW = ev_pop` (R66). -/
def decodePopw (w : BitVec 1) : Instr := if w = 1#1 then .poll else .noPoll

/-- A strobe selects its operation when it is 1 (R81, R152). -/
def decodeStrobe (w : BitVec 1) (i : Instr) : Decoded := if w = 1#1 then .op i else .quiet

/-- The operation map of R72. -/
def decode : PortWord → Decoded
  | .txw w => .op (decodeTxw w)
  | .txBusy => .op .isDraining
  | .drainWait => .op .drainWait
  | .pulse w => decodeStrobe w .pteTick
  | .phv w => .op (decodePhv w)
  | .smp w => .op (decodeSmp w)
  | .dbw w => .op (decodeDbw w)
  | .evc w => decodeEvc w
  | .popw w => .op (decodePopw w)
  | .syncR => .op .syncR
  | .syncW => .op .syncW
  | .validate buf n => .op (.validate buf n)
  | .send name buf n => .op (.send name buf n)
  | .rst w => decodeStrobe w .reset

/-! ### Encoding, from the same tables -/

/-- `{v, x[7:0]}` (R61). -/
def encodeTxw (v : Bool) (x : Byte) : PortWord := .txw (BitVec.ofBool v ++ x)

/-- `{hi, lo}`, a word of two one-bit fields (R62, R64). -/
def twoBits (hi lo : Bool) : BitVec 2 := BitVec.ofBool hi ++ BitVec.ofBool lo

/-- The word that selects an operation, and the port it travels on (R72). -/
def encode : Instr → PortWord
  | .enqueue d => encodeTxw true d
  | .txNoreq x => encodeTxw false x
  | .isDraining => .txBusy
  | .drainWait => .drainWait
  | .pteTick => .pulse 1#1
  | .smpCapture a b => .phv (twoBits a b)
  | .qdecNone0 => .smp 0b0000#4
  | .qdecNone1 => .smp 0b0001#4
  | .qdecNone2 => .smp 0b0010#4
  | .qdecNone3 => .smp 0b0011#4
  | .qdecIncrease => .smp 0b0100#4
  | .qdecNone5 => .smp 0b0101#4
  | .qdecNone6 => .smp 0b0110#4
  | .qdecNone7 => .smp 0b0111#4
  | .qdecNone8 => .smp 0b1000#4
  | .qdecNone9 => .smp 0b1001#4
  | .qdecNoneA => .smp 0b1010#4
  | .qdecDecrease => .smp 0b1011#4
  | .qdecNoneC => .smp 0b1100#4
  | .qdecNoneD => .smp 0b1101#4
  | .qdecNoneE => .smp 0b1110#4
  | .qdecNoneF => .smp 0b1111#4
  | .debTick s => .dbw (twoBits true s)
  | .debNotick x => .dbw (twoBits false x)
  | .publishUp => .evc 0b01#2
  | .publishDown => .evc 0b10#2
  | .publishEnter => .evc 0b11#2
  | .poll => .popw 1#1
  | .noPoll => .popw 0#1
  | .syncR => .syncR
  | .syncW => .syncW
  | .validate buf n => .validate buf n
  | .send name buf n => .send name buf n
  | .reset => .rst 1#1

/-! ### The words of the operation table -/

/-- The port word of a table row whose pattern has at most `nbits` bits, `nbits` counted in whole bytes. The table's
number does not name the port, and the words of five ports share one byte: of those the sample port alone has rows
with fixed bits, so a number of at most one byte is an SMP, and of two bytes a TXW (DESIGN CHOICE, log 16). -/
def tableWord (nbits w : Nat) : Option PortWord :=
  if nbits ≤ 8 then (if w < 16 then some (.smp (BitVec.ofNat 4 w)) else none)
  else if nbits ≤ 16 then (if w < 512 then some (.txw (BitVec.ofNat 9 w)) else none)
  else none

/-- The operation the decoder reads from a row's word. -/
def decodeTableWord (nbits w : Nat) : Option Instr :=
  match tableWord nbits w with
  | none => none
  | some pw =>
    match decode pw with
    | .op i => some i
    | .quiet => none
    | .rejected _ => none

end Sys2Proof
end

