-- ==== Sys2Proof/Config.lean ====
section
/-! DEFINITION. What is fixed for the machine (`00_scope.md` R7), the form of its inputs, and the free values. -/

namespace Sys2Proof

namespace Config

/-! ### Parameters whose value the spec gives (R7, status "source") -/

/-- The parameters of R7 with status "source", and EVQ_PTR_W, a decision with one value (D21). "Each is a named parameter
of R7 with the document's value as its value" (U1). The two that are sizes of State's own types, EVQ_SLOTS (`SLOT[0..31]`) and EVQ_PTR_W (6
bits), are taken there from `document`; a configuration with other values is refused (log 28). -/
structure SourceValues where
  /-- EVQ_SLOTS: slots of the event ring (R27). -/
  evqSlots : Nat
  /-- EVQ_PTR_W: width of each cursor (R28, R29). -/
  evqPtrW : Nat
  /-- EVQ_CAP: events the ring holds before it drops (R116, conflict C2). -/
  evqCap : Nat
  /-- DEB_TICKS: the value a debounce window is opened with, in the width of CNT (R26, R105). -/
  debTicks : BitVec 4
  /-- DEB_PERIOD, in milliseconds: what the environment keeps between two ticks; no rule of the model depends on it (R8). -/
  debPeriod : Nat
  /-- IMG_MAX: the largest tape image buffer in bytes (R42). -/
  imgMax : Nat
  /-- IMG_MIN: filled lengths up to this are rejected (R126). -/
  imgMin : Nat
  /-- PTR_OFF: offset of the end pointer in the image (R43). -/
  ptrOff : Nat
  /-- LOAD_BASE: address of image byte 0 in the source machine (R44). -/
  loadBase : Nat
  /-- TERM: the terminator byte (R43). -/
  term : Nat
  /-- VERSN: byte 0 of a valid image (R43). -/
  versn : Nat
  /-- PROGRESS_STEP: payload bytes between progress reports (R133). -/
  progressStep : Nat
deriving DecidableEq, Repr

/-- The document's values, column "value or constraint" of R7 (log 28). Every literal of the source is unaudited, so a
corrected one changes one line here (U1); for EVQ_SLOTS and EVQ_PTR_W that line changes the types of `State.slot` and of
the cursors. -/
abbrev document : SourceValues where
  evqSlots := 32
  evqPtrW := 6
  evqCap := 32
  debTicks := 10#4
  debPeriod := 10
  imgMax := 16384
  imgMin := 120
  ptrOff := 11
  loadBase := 0x4009
  term := 0x80
  versn := 0x00
  progressStep := 128

end Config

/-- A cursor of the event ring, EVQ_PTR_W = 6 bits: "one wrap bit above a 5-bit slot index" (R7, R28, R29). -/
abbrev Cursor := BitVec Config.document.evqPtrW

namespace Config

/-! ### Parameters a model takes as arguments (R7, status "OPEN", and the decisions kept as parameters) -/

/-- EVQ_ARB: the order of two publishes in one instant (R7, R119). -/
inductive Arbitration
  /-- Either order: "a model admits both". -/
  | any
  | qdecFirst
  | debFirst
deriving DecidableEq, Repr

/-- The static parameters. "The parameters of R7 are fixed before reset is released and no operation changes them"
(R34). -/
structure Params where
  /-- The parameters with status "source". -/
  source : SourceValues
  /-- TXQ_DEPTH: entries the PTE input queue holds. -/
  txqDepth : Nat
  /-- N0: pulses that encode a 0 bit. -/
  n0 : Nat
  /-- N1: pulses that encode a 1 bit. -/
  n1 : Nat
  /-- T_HI: pulse ticks the line is high in one pulse. -/
  tHi : Nat
  /-- T_LO: pulse ticks the line is low in one pulse. -/
  tLo : Nat
  /-- T_GAP: pulse ticks of inter-bit silence. -/
  tGap : Nat
  /-- MSB_FIRST: bit 7 of a byte is serialized first. -/
  msbFirst : Bool
  /-- DIV: system clocks per pulse tick. -/
  div : Nat
  /-- SMPQ_DEPTH: entries of the sampler's queue. -/
  smpqDepth : Nat
  /-- EVQ_ARB. -/
  evqArb : Arbitration
  /-- EVQ_LAG: 0 exact cursors (R122), > 0 lagging copies (R123), each equal to its cursor after EVQ_LAG of its SYNC steps
  with the cursor standing still (R173). -/
  evqLag : Nat
  /-- T_SETTLE, in turns of HOST (DESIGN CHOICE, log 4). -/
  tSettle : Nat
deriving DecidableEq, Repr

/-- The column "value or constraint" of R7; "a model refuses the configuration" outside it (R74, X8; log 20, log 28). -/
abbrev Params.Legal (p : Params) : Prop :=
  p.source = document ∧ 1 ≤ p.txqDepth ∧ 1 ≤ p.n0 ∧ 1 ≤ p.n1 ∧ p.n0 ≠ p.n1 ∧ 1 ≤ p.tHi ∧ 1 ≤ p.tLo ∧ 1 ≤ p.tGap ∧
    1 ≤ p.div ∧ 1 ≤ p.smpqDepth ∧ 1 ≤ p.tSettle

/-- `N(b)`: the number of pulses that encode the bit `b` (R70). -/
def Params.pulses (p : Params) (b : Bool) : Nat := if b then p.n1 else p.n0

/-- The smallest `w` with `2^w > m`. -/
def bitsAbove (m : Nat) : Nat := if m = 0 then 0 else Nat.log2 m + 1

/-- CNT_W, the width of NP: smallest `w` with `2^w > max(N0,N1) - 1`, at least 1 (R7). -/
def Params.cntW (p : Params) : Nat := max 1 (bitsAbove (max p.n0 p.n1 - 1))

/-- TMR_W, the width of TMR: smallest `w` with `2^w > max(T_HI,T_LO,T_GAP)` (R7). -/
def Params.tmrW (p : Params) : Nat := bitsAbove (max p.tHi (max p.tLo p.tGap))

/-- The width of DIVCNT: smallest `w` with `2^w >= DIV` (R18). -/
def Params.divW (p : Params) : Nat := bitsAbove (p.div - 1)

/-- The reference set, column "ref" of R7, which State.reset holds (DESIGN CHOICE, log 3; T_SETTLE has no reference
value, log 4). -/
def reference : Params where
  source := document
  txqDepth := 4
  n0 := 4
  n1 := 9
  tHi := 3
  tLo := 3
  tGap := 26
  msbFirst := true
  div := 1
  smpqDepth := 4
  evqArb := .any
  evqLag := 0
  tSettle := 1

/-! ### The form of the inputs -/

/-- What an agent asks for in a slot: a word on a port; QDEC taking the head of SMPQ, whatever it is (script line `QS`,
R75); or HOST going on with the procedure it is in. -/
inductive Request
  | word (w : PortWord)
  | takeSample
  | hostTurn
deriving DecidableEq, Repr

/-- One entry of the total order of R52, or one change of an input. -/
inductive Slot
  /-- One operation, on its own. -/
  | one (r : Request)
  /-- Two operations that the hardware performs in the same clock cycle (R52). The cycle is not counted in DIVCNT (DESIGN
  CHOICE, log 34). -/
  | sameCycle (r₁ r₂ : Request)
  /-- One `clk_sys` cycle: the divider counts, and the operation of the cycle is performed (R18). `tickFirst` says which
  of the two is first in a cycle that is a pulse tick, where no rule orders the operation and PTE_TICK (log 14). -/
  | clock (r : Request) (tickFirst : Bool)
  /-- The environment sets the levels {enc_a, enc_b} (R36). -/
  | lines (l : PhaseValue)
  /-- A raw sample from a sampler of which nothing is assumed (script line `SMP`, R75, R96). -/
  | sample (x : Sample)
deriving DecidableEq, Repr, Inhabited

/-! ### Free values: opaque, without a body; nothing in Lean can evaluate them -/

/-- The slots the environment supplies when State lists none (DESIGN CHOICE, log 2). -/
opaque environment : Nat → Slot

/-- Contents of slot `k` of the event ring after a RESET ("unspecified", R27, R152; DESIGN CHOICE, log 6). -/
opaque slotAfterReset : Nat → Nat → EventCode

/-- How far a SYNC step moves its copy, reduced into the range of R123 ("for some v"; DESIGN CHOICE, log 12). -/
opaque syncAdvance : Nat → Nat

/-- Which of two publishes in one instant is first under EVQ_ARB = ANY (R119; DESIGN CHOICE, log 13). -/
opaque qdecWins : Nat → Bool

end Config

end Sys2Proof
end

