-- ==== Sys2Proof/Machine/State.lean ====
section
/-! DEFINITION. The state of PicoK7 CORE (`10_state.md`), with the inputs it reads and the observations it has given,
its reset value, and the reasons a step can stop. -/

namespace Sys2Proof.Machine

/-- The phase of the PTE sequencer (R14). -/
inductive PtePhase
  | idle
  | hi
  | lo
  | gap
deriving DecidableEq, Repr

/-- The 2-bit encoding of R14. -/
def PtePhase.code : PtePhase → BitVec 2
  | .idle => 0b00#2
  | .hi => 0b01#2
  | .lo => 0b10#2
  | .gap => 0b11#2

/-- The sub-causes of InvalidImage, in the order VALIDATE checks them (R126, R139). -/
inductive SubCause
  /-- 1.1: `n <= 120`. -/
  | tooShort
  /-- 1.2: `buf[0] != 0x00`. -/
  | badMarker
  /-- 1.3: `effective_length > n` or `effective_length <= 0`. -/
  | lengthMismatch
  /-- 1.4: `buf[effective_length - 1] != 0x80`. -/
  | missingTerminator
deriving DecidableEq, Repr

/-- The error taxonomy of R139. Only `invalidImage` is ever raised by an operation of this spec; the second belongs to
the storage collaborator (X33) and the third is never surfaced. -/
inductive Condition
  | invalidImage (c : SubCause)
  | storageUnavailable
  | queueSaturated
deriving DecidableEq, Repr

/-- The numeric code of a condition (R139); 0 is success. -/
def Condition.code : Condition → Nat
  | .invalidImage _ => 1
  | .storageUnavailable => 2
  | .queueSaturated => 3

/-- How a host procedure ends: with a value, or with the condition it raised (R126, R139). -/
inductive Result (α : Type)
  | ok (x : α)
  | raised (c : Condition)
deriving DecidableEq, Repr

/-- The procedure HOST is in, and how far it has come. The operations of a host procedure are not one atomic step:
those of other agents fall between them (R142). The model's own field, log 9. -/
inductive HostProc
  /-- HOST is in no procedure. -/
  | idle
  /-- A blocked ENQUEUE: HOST holds `tx_valid = 1` and `tx_data = d` (R78). -/
  | enqueue (d : Byte)
  /-- A blocked DRAIN_WAIT (R80). -/
  | drain
  /-- SEND, step 1: the T_SETTLE wait has `left` turns to go; then `name` and `payload` (R131). -/
  | settle (left : Nat) (name payload : List Byte)
  /-- SEND, step 2: `name` is what is left of the name (R132). -/
  | sendName (name payload : List Byte)
  /-- SEND, step 3: `rest` is what is left of the payload of `len` bytes, `k` bytes having been enqueued (R133). -/
  | sendPayload (rest : List Byte) (k len : Nat)
  /-- SEND, step 4: DRAIN_WAIT (R134). -/
  | sendDrain
deriving DecidableEq, Repr

/-- What can be seen of a run from outside the block (R172). -/
inductive Observation
  /-- The level of `tape_out` after a PTE_TICK. -/
  | out (level : Bool)
  /-- A byte accepted at an ENQUEUE. -/
  | accepted (d : Byte)
  /-- The answer of IS_DRAINING. -/
  | busy (b : Bool)
  /-- `smp_pending`, which QDEC sees in a clock cycle (R172; the clock: log 37). -/
  | smpPending (b : Bool)
  /-- The return of DRAIN_WAIT. -/
  | drained
  /-- The answer EVR of POLL. -/
  | polled (evr : BitVec 3)
  /-- What `ev_valid` and `ev_code` show when HOST does not pop. -/
  | peeked (evr : BitVec 3)
  /-- The result of VALIDATE. -/
  | validated (r : Result Nat)
  /-- A progress report of SEND, in percent. -/
  | progress (percent : Nat)
  /-- The result of SEND. -/
  | sent (r : Result Unit)
deriving DecidableEq, Repr

/-- No hardware operation raises a condition: "There is no fault state, no fault bit and no halted state" (R138). The
type has no constructor, so no step can answer a fault (safe: DEDUCED, log 23). -/
inductive Fault
deriving DecidableEq, Repr

/-- Why a step has no meaning. -/
inductive Refusal
  /-- Raised by an arm of `exec` whose operation has no meaning yet. Safe: nothing is claimed of it. No arm does so. -/
  | notModelled (mnemonic : String)
  /-- Raised by `step` when the parameters are outside the constraints of R7: "a model refuses the configuration"
  (R74, X8). Safe. -/
  | illegalConfiguration
  /-- Raised by `step` for the word EVC `0b00`: "PUBLISH is never performed with it" (R74). Safe. -/
  | noneEventCode
  /-- Raised by VALIDATE and SEND when `n > IMG_MAX` or `n > len(buf)`: "refuse: precondition of VALIDATE" (X26).
  Safe. -/
  | imagePrecondition
  /-- Raised by SEND, and by the turn of a SEND that ran out of name: "a model refuses SEND on such a name" (R74,
  X28). Safe. -/
  | nameWithoutEndMarker
  /-- Raised by ENQUEUE and SEND when HOST is in a SEND, or in an ENQUEUE of another byte: "Two SEND
  procedures at once, or ENQUEUE from two hosts: refuse: one HOST; the queue has one producer" (X39). Safe. -/
  | hostBusy
deriving DecidableEq, Repr

/-- The state: that of the block (R11 to R31), then the model's own fields. -/
structure State where
  /-- TXQ, head first (R11). -/
  txq : List Byte
  /-- SR (R12). -/
  sr : Byte
  /-- NB (R13). -/
  nb : BitVec 4
  /-- PH (R14). -/
  ph : PtePhase
  /-- NP, CNT_W bits (R15; log 19). -/
  np : Nat
  /-- TMR, TMR_W bits (R16; log 19). -/
  tmr : Nat
  /-- DIVCNT (R18; log 19). -/
  divcnt : Nat
  /-- PHASE (R21). -/
  phase : PhaseValue
  /-- SMPQ, head first (R22). -/
  smpq : List Sample
  /-- LAST_SAMPLE (R24). -/
  lastSample : Sample
  /-- ACC (R25). -/
  acc : Bool
  /-- CNT (R26). -/
  cnt : BitVec 4
  /-- SLOT[0..31] (R27). -/
  slot : Vector EventCode Config.document.evqSlots
  /-- WPTR (R28). -/
  wptr : Cursor
  /-- RPTR (R29). -/
  rptr : Cursor
  /-- RPTR_P, meaningful when EVQ_LAG > 0 (R31). -/
  rptrP : Cursor
  /-- WPTR_C, meaningful when EVQ_LAG > 0 (R31). -/
  wptrC : Cursor
  /-- RPTR at the last SYNC_R steps, newest first, at most EVQ_LAG of them (log 33). -/
  rptrPast : List Cursor
  /-- WPTR at the last SYNC_W steps, newest first, at most EVQ_LAG of them (log 33). -/
  wptrPast : List Cursor
  /-- The static parameters (R7, R34). -/
  cfg : Config.Params
  /-- The procedure HOST is in (log 9). -/
  host : HostProc
  /-- The levels {enc_a, enc_b} (log 7). -/
  lines : PhaseValue
  /-- The slots still to be taken, oldest first (log 1). -/
  script : List Config.Slot
  /-- What has been observed, oldest first (log 18). -/
  trace : List Observation
  /-- How many free values have been used (log 12). -/
  draws : Nat
deriving DecidableEq, Repr

/-- The machine right after reset (R39). `slot`, `phase` and the model's own fields have no value in the spec: log 3
(`cfg`), log 5 (`slot`), log 33 (`rptrPast`, `wptrPast`), log 7 (`phase`, `lines`), log 9 (`host`), log 1 (`script`),
log 18 (`trace`), log 12 (`draws`). -/
def State.reset : State where
  txq := []
  sr := 0x00#8
  nb := 0#4
  ph := .idle
  np := 0
  tmr := 0
  divcnt := 0
  phase := 0b00#2
  smpq := []
  lastSample := 0b0000#4
  acc := false
  cnt := 0#4
  slot := Vector.replicate _ 0b00#2
  wptr := 0
  rptr := 0
  rptrP := 0
  wptrC := 0
  rptrPast := []
  wptrPast := []
  cfg := Config.reference
  host := .idle
  lines := 0b00#2
  script := []
  trace := []
  draws := 0

end Sys2Proof.Machine
end

