-- ==== Sys2Proof/WellFormed.lean ====
section
/-! DEFINITION. The preconditions the spec puts on the operands of an operation. Only the host procedures have any:
every word on every other port is legal (R74, R138). -/

namespace Sys2Proof

/-- "`0 <= n <= IMG_MAX` and `n <= len(buf)`" (R126, X26). -/
abbrev ImageOk (p : Config.Params) (buf : List Byte) (n : Nat) : Prop := n ≤ p.source.imgMax ∧ n ≤ buf.length

/-- The array holds an end marker, a byte whose bit 7 is set (R74, X28). Where the marker is not the last byte, the
bytes after it are never sent (R132, X29). -/
abbrev NameOk (name : List Byte) : Prop := ∃ b ∈ name, b.msb = true

/-- `NAME` as R69 writes it: bit 7 is set in the last byte and in no byte before it. -/
abbrev IsName (name : List Byte) : Prop :=
  name ≠ [] ∧ (∀ b ∈ name.dropLast, b.msb = false) ∧ ∀ b ∈ name.getLast?, b.msb = true

/-- The operands of an operation are ones its rule is defined for. -/
def Instr.wellFormed (p : Config.Params) : Instr → Bool
  | .validate buf n => decide (ImageOk p buf n)
  | .send name buf n => decide (ImageOk p buf n ∧ NameOk name)
  | .enqueue _ | .txNoreq _ | .isDraining | .drainWait | .pteTick | .smpCapture _ _ => true
  | .qdecNone0 | .qdecNone1 | .qdecNone2 | .qdecNone3 | .qdecIncrease | .qdecNone5 | .qdecNone6 | .qdecNone7 => true
  | .qdecNone8 | .qdecNone9 | .qdecNoneA | .qdecDecrease | .qdecNoneC | .qdecNoneD | .qdecNoneE | .qdecNoneF => true
  | .debTick _ | .debNotick _ | .publishUp | .publishDown | .publishEnter | .poll | .noPoll => true
  | .syncR | .syncW | .reset => true

end Sys2Proof
end

