-- ==== Sys2Proof/Machine/Operands.lean ====
section
/-! DEFINITION. How operands are read: the fields of a sample, the classes of R100, the answer word of POLL, the two host
byte-array formats (`30_encoding.md`), and which agent performs an operation (R6). -/

namespace Sys2Proof.Machine

/-! ### Samples and phase values (R62, R63) -/

/-- `{a, b}`, a phase value from the two line levels (R62). -/
def phaseOf (a b : Bool) : PhaseValue := twoBits a b

/-- `c`, the current phase: bits 3:2 of the sample (R63). -/
def currentPhase (x : Sample) : PhaseValue := x.extractLsb' 2 2

/-- `p`, the previous phase: bits 1:0 of the sample (R63). -/
def previousPhase (x : Sample) : PhaseValue := x.extractLsb' 0 2

/-- `{c, p}`, the sample of a transition (R63, R97). -/
def sampleOf (current previous : PhaseValue) : Sample := current ++ previous

/-- The three classes of a transition (R100). -/
inductive QuadClass
  | increase
  | decrease
  | none
deriving DecidableEq, Repr

/-- `classify` (R100; §4.4 governs, conflict C1). -/
def classify (x : Sample) : QuadClass :=
  if previousPhase x = 0b00#2 ∧ currentPhase x = 0b01#2 then .increase
  else if previousPhase x = 0b11#2 ∧ currentPhase x = 0b10#2 then .decrease
  else .none

/-- The event a class publishes (R99). -/
def QuadClass.event : QuadClass → Option KeyEvent
  | .increase => some .up
  | .decrease => some .down
  | .none => Option.none

/-! ### The poll response (R66) -/

/-- `EVR = {ev_valid, ev_code[1:0]}` (R66). -/
def evrOf (valid : Bool) (code : EventCode) : BitVec 3 := BitVec.ofBool valid ++ code

/-! ### Cursors (R118) -/

/-- "The slot index is the cursor modulo 32", that is modulo EVQ_SLOTS (R118): bits [4:0] (R28). -/
def slotIndex (c : Cursor) : Nat := c.toNat % Config.document.evqSlots

theorem slotIndex_lt (c : Cursor) : slotIndex c < Config.document.evqSlots := Nat.mod_lt _ (by decide)

/-- `(new - old) mod 64` (R118, R123). -/
def cursorDistance (old new : Cursor) : Nat := (new - old).toNat

/-- A value "anywhere from the old copy up to" the true cursor (R123): `want` reduced into that range. -/
def cursorAdvance (old true_ : Cursor) (want : Nat) : Cursor :=
  old + BitVec.ofNat Config.document.evqPtrW (want % (cursorDistance old true_ + 1))

/-- The Gray code in which a cursor crosses to another clock, `g = b xor (b >> 1)` (R124). No rule of the model depends
on it. -/
def grayEncode (b : Cursor) : Cursor := b ^^^ (b >>> 1)

/-- Back from the Gray code: bit `i` is the parity of the code's bits from `i` up (R124). -/
def grayDecode (g : Cursor) : Cursor :=
  let x := g ^^^ (g >>> 1)
  let y := x ^^^ (x >>> 2)
  y ^^^ (y >>> 4)

/-! ### The tape image (R46, R67, R68) -/

/-- `MemRead(buf, off, n)`: `n` bytes at `off`, the byte at `off` least significant (R9, R46). The rules use it only
where `off + n <= len(buf)` (R127). -/
def memRead (buf : List Byte) (off n : Nat) : Nat :=
  ((buf.drop off).take n).foldr (fun b acc => b.toNat + 256 * acc) 0

/-- `effective_length = ptr - LOAD_BASE`, over the integers (R68). -/
def effectiveLength (p : Config.Params) (buf : List Byte) : Int :=
  (memRead buf p.source.ptrOff 2 : Int) - (p.source.loadBase : Int)

/-- VALIDATE(buf, n): the five steps of R126 in their order (R127); `.ok L` or the sub-cause it raises. -/
def validateImage (p : Config.Params) (buf : List Byte) (n : Nat) : Except SubCause Nat :=
  if n ≤ p.source.imgMin then .error .tooShort
  else if memRead buf 0 1 ≠ p.source.versn then .error .badMarker
  else if effectiveLength p buf ≤ 0 then .error .lengthMismatch
  else if (n : Int) < effectiveLength p buf then .error .lengthMismatch
  else if memRead buf ((effectiveLength p buf).toNat - 1) 1 ≠ p.source.term then .error .missingTerminator
  else .ok (effectiveLength p buf).toNat

/-! ### The program name (R69, R132) -/

/-- The bytes of a name that are sent: up to and including the first with bit 7 set (R132). -/
def sentName : List Byte → List Byte
  | [] => []
  | b :: rest => if b.msb then [b] else b :: sentName rest

/-- `floor(100 * (k + 1) / L)` after the byte of offset `k` (R133, R168). -/
def progressPercent (k len : Nat) : Nat := 100 * (k + 1) / len

/-! ### Who performs an operation (R6, R72) -/

/-- The agent of the operation table. -/
def agentOf : Instr → Agent
  | .enqueue _ | .txNoreq _ | .isDraining | .drainWait | .poll | .noPoll | .validate _ _ | .send _ _ _ => .host
  | .pteTick => .pte
  | .smpCapture _ _ => .sampler
  | .qdecNone0 | .qdecNone1 | .qdecNone2 | .qdecNone3 | .qdecIncrease | .qdecNone5 | .qdecNone6 | .qdecNone7 => .qdec
  | .qdecNone8 | .qdecNone9 | .qdecNoneA | .qdecDecrease | .qdecNoneC | .qdecNoneD | .qdecNoneE | .qdecNoneF => .qdec
  | .publishUp | .publishDown => .qdec
  | .debTick _ | .debNotick _ | .publishEnter => .deb
  | .syncR | .syncW => .synchroniser
  | .reset => .environment

end Sys2Proof.Machine
end

