-- ==== Sys2Proof/Machine/Flags.lean ====
section
/-! DEFINITION. The derived flags and the output ports: each "a pure function of other state" (R10, R34). -/

namespace Sys2Proof.Machine

/-- `OUT`, port `tape_out`: 1 exactly when `PH = HI` (R17). -/
def out (s : State) : Bool := s.ph == .hi

/-- `TX_FULL = (len(TXQ) = TXQ_DEPTH)` (R19). -/
def txFull (s : State) : Bool := s.txq.length == s.cfg.txqDepth

/-- Port `tx_ready`, the complement of `TX_FULL` (R10). -/
def txReady (s : State) : Bool := !txFull s

/-- `TX_BUSY = (len(TXQ) > 0) or (PH != IDLE)`, port `tx_busy` (R20). -/
def txBusy (s : State) : Bool := decide (0 < s.txq.length) || s.ph != .idle

/-- `SMP_PENDING = (len(SMPQ) > 0)` (R23). -/
def smpPending (s : State) : Bool := decide (0 < s.smpq.length)

/-- Port `smp_data`: the head sample (R10). -/
def smpData (s : State) : Option Sample := s.smpq.head?

/-- RPTR as the producer sees it: RPTR itself when EVQ_LAG = 0, the copy RPTR_P otherwise (R31, R122, R123). -/
def rptrSeen (s : State) : Cursor := if s.cfg.evqLag = 0 then s.rptr else s.rptrP

/-- WPTR as the consumer sees it: WPTR itself when EVQ_LAG = 0, the copy WPTR_C otherwise (R31, R122, R123). -/
def wptrSeen (s : State) : Cursor := if s.cfg.evqLag = 0 then s.wptr else s.wptrC

/-- `EV_COUNT = (WPTR - RPTR) mod 64` (R30). -/
def evCount (s : State) : Nat := cursorDistance s.rptr s.wptr

/-- `EVQ_FULL = ((WPTR - RPTR_P) mod 64 = EVQ_CAP)`, as the producer sees it (R34). -/
def evqFull (s : State) : Bool := cursorDistance (rptrSeen s) s.wptr == s.cfg.source.evqCap

/-- `EVQ_EMPTY = (WPTR_C = RPTR)`, as the consumer sees it (R34). -/
def evqEmpty (s : State) : Bool := wptrSeen s == s.rptr

/-- The code in a slot of the ring, by cursor. -/
def slotAt (s : State) (c : Cursor) : EventCode := s.slot[slotIndex c]'(slotIndex_lt c)

/-- Port `ev_valid` (R10). -/
def evValid (s : State) : Bool := !evqEmpty s

/-- Port `ev_code`: "the oldest unread event code, `0b00` when `ev_valid = 0`" (R10). -/
def evCode (s : State) : EventCode := if evqEmpty s then 0b00#2 else slotAt s s.rptr

/-- `EVR = {ev_valid, ev_code}` (R66). -/
def evr (s : State) : BitVec 3 := evrOf (evValid s) (evCode s)

/-- The byte HOST holds on `tx_data` with `tx_valid = 1`, if any (R78, R132, R133). -/
def presented (s : State) : Option Byte :=
  match s.host with
  | .enqueue d => some d
  | .sendName (b :: _) _ => some b
  | .sendPayload (b :: _) _ _ => some b
  | .idle | .drain | .settle _ _ _ | .sendName [] _ | .sendPayload [] _ _ | .sendDrain => none

end Sys2Proof.Machine
end

