-- ==== Sys2Proof/Machine/Ops.lean ====
section
/-! DEFINITION. The shared operations on the state: the queue primitives of R170, the start of a bit frame, publishing,
presenting a byte, raising a condition, reset. Every meaning is written over these. -/

namespace Sys2Proof.Machine

/-- What one step answers. -/
abbrev Answer := Host.Outcome State Fault Refusal

/-- Goes on with `f` where the answer so far is a next state. -/
def andThen (a : Answer) (f : State → Answer) : Answer :=
  match a with
  | .next s => f s
  | .fault r => .fault r
  | .refused r => .refused r

/-- Adds an observation to the trace (R172). -/
def observe (o : Observation) (s : State) : State := { s with trace := s.trace ++ [o] }

/-! ### The transmit queue and the shift register -/

/-- `TXQ.push(d)`, seen by HOST as the acceptance of the byte (R78, R172). -/
def acceptByte (d : Byte) (s : State) : State := observe (.accepted d) { s with txq := s.txq ++ [d] }

/-- HOST presents `d`: it is accepted, or HOST "holds `tx_valid` and `tx_data` unchanged until the cycle in which
`tx_ready = 1`" (R78). -/
def presentByte (d : Byte) (s : State) : State :=
  if txFull s then { s with host := .enqueue d } else acceptByte d { s with host := .idle }

/-- `start_bit(sr, nb)` (R83). -/
def startBit (sr : Byte) (nb : BitVec 4) (s : State) : State :=
  let b := if s.cfg.msbFirst then sr.msb else sr.getLsbD 0
  { s with
    sr := if s.cfg.msbFirst then sr <<< 1 else sr >>> 1
    nb := nb - 1
    np := s.cfg.pulses b - 1
    ph := .hi
    tmr := s.cfg.tHi }

/-- `start_bit(TXQ.pop(), 8)` where TXQ holds a byte, `idle` where it holds none (R82, R86). -/
def loadByte (s : State) (idle : State) : State :=
  match s.txq with
  | [] => idle
  | d :: rest => startBit d 8#4 { s with txq := rest }

/-! ### The sample queue -/

/-- `SMPQ.push(x)`; with the queue full "the newest sample is lost" (R97, R98). -/
def pushSample (x : Sample) (s : State) : State :=
  if s.smpq.length < s.cfg.smpqDepth then { s with smpq := s.smpq ++ [x] } else s

/-! ### The event queue -/

/-- PUBLISH(e): "the new event is dropped" when the queue is full as the producer sees it (R114). -/
def publish (e : KeyEvent) (s : State) : State :=
  if evqFull s then s
  else { s with
    slot := s.slot.set (slotIndex s.wptr) e.code (slotIndex_lt s.wptr)
    wptr := s.wptr + 1 }

/-- `publish(e)` where there is an event to publish. -/
def publishSome (e : Option KeyEvent) (s : State) : State :=
  match e with
  | some e => publish e s
  | none => s

/-- The state change of POLL: RPTR advances past the event returned, if there is one (R115). -/
def takeEvent (s : State) : State := if evqEmpty s then s else { s with rptr := s.rptr + 1 }

/-! ### Synchronising a cursor -/

/-- The values of the true cursor at the last `lag` SYNC steps, this one included, newest first (R173, log 33). -/
def syncPast (lag : Nat) (true_ : Cursor) (past : List Cursor) : List Cursor := (true_ :: past).take lag

/-- Whether the cursor has stood still over the last `lag` SYNC steps, this one included (R173, log 33). -/
def stoodStill (lag : Nat) (true_ : Cursor) (past : List Cursor) : Bool := past == List.replicate lag true_

/-- The copy after a SYNC step: the cursor itself once that has stood still over EVQ_LAG of them (R173, log 33), and else
a free value in the range of R123 (log 12). -/
def syncCopy (s : State) (old true_ : Cursor) (past : List Cursor) : Cursor :=
  if stoodStill s.cfg.evqLag true_ past then true_ else cursorAdvance old true_ (Config.syncAdvance s.draws)

/-! ### HOST, one thing at a time -/

/-- An operation that HOST performs between its procedures. HOST is "single-threaded" (R6): while it is blocked in an
ENQUEUE, in a DRAIN_WAIT or in a SEND it has no other operation, and nothing happens (R58, R142, R162; log 29). -/
def whenHostFree (s : State) (a : Answer) : Answer := if s.host = .idle then a else .next s

/-! ### DRAIN_WAIT -/

/-- DRAIN_WAIT completes: no state of the block changes, and HOST goes on (R80). -/
def drainReturns (s : State) : State := observe .drained { s with host := .idle }

/-! ### Raising a condition (R139) -/

/-- `raise InvalidImage(c)`: the procedure ends with the condition and "no faulting address, no offending byte and no
length is recorded" (R139). Nothing vectors and nothing is saved (R144). -/
def raise {α : Type} (c : SubCause) : Result α := .raised (.invalidImage c)

/-- The result of VALIDATE, as its caller sees it (R126). -/
def validateResult (p : Config.Params) (buf : List Byte) (n : Nat) : Result Nat :=
  match validateImage p buf n with
  | .error c => raise c
  | .ok len => .ok len

/-! ### Reset (R152) -/

/-- Every element of the block at its value of R39: PHASE from the lines, SLOT unspecified, that is a free value in
each slot. HOST, which like every agent starts "at the release of reset" (R150), is in no procedure. The parameters, the
inputs and what has been observed stay (log 6, 7, 11). -/
def resetBlock (s : State) : State :=
  { State.reset with
    phase := s.lines
    slot := Vector.ofFn fun k => Config.slotAfterReset s.draws k
    cfg := s.cfg
    lines := s.lines
    script := s.script
    trace := s.trace
    draws := s.draws + 1 }

end Sys2Proof.Machine
end

