-- ==== Sys2Proof/Machine/Debounce.lean ====
section
/-! DEFINITION. The switch debouncer (`42_debounce.md`): DEB_TICK and DEB_NOTICK. -/

namespace Sys2Proof.Machine

/-- The last arm of DEB_TICK: "the counter reaches 0 at this tick", the new state is accepted, and only a press publishes
(R105). -/
def acceptLevel (level : Bool) (s : State) : State :=
  publishSome (if level then some .enter else none) { s with acc := level, cnt := 0#4 }

/-- DEB_TICK(s) on the raw level (R105, R106). -/
def debounce (level : Bool) (s : State) : State :=
  if level = s.acc then { s with cnt := 0#4 }
  else if s.cnt = 0#4 then { s with cnt := s.cfg.source.debTicks }
  else if s.cnt - 1 = 0#4 then acceptLevel level s
  else { s with cnt := s.cnt - 1 }

/-- DEB_TICK(s) (R105). -/
def execDebTick (level : Bool) (s : State) : Answer := .next (debounce level s)

/-- DEB_NOTICK: no tick, no effect (R72, R105). -/
def execDebNotick (_x : Bool) (s : State) : Answer := .next s

end Sys2Proof.Machine
end

