-- ==== Sys2Proof/Machine/Evq.lean ====
section
/-! DEFINITION. The event queue (`43_evq.md`): PUBLISH, POLL, NOPOLL, SYNC_R, SYNC_W. -/

namespace Sys2Proof.Machine

/-- PUBLISH(UP) (R114). -/
def execPublishUp (s : State) : Answer := .next (publish .up s)

/-- PUBLISH(DOWN) (R114). -/
def execPublishDown (s : State) : Answer := .next (publish .down s)

/-- PUBLISH(ENTER) (R114). -/
def execPublishEnter (s : State) : Answer := .next (publish .enter s)

/-- POLL: answers EVR and takes the event, if there is one (R115). -/
def execPoll (s : State) : Answer := whenHostFree s (.next (observe (.polled (evr s)) (takeEvent s)))

/-- NOPOLL: "`ev_valid` and `ev_code` show the same answer and change nothing (a peek)" (R115). -/
def execNoPoll (s : State) : Answer := whenHostFree s (.next (observe (.peeked (evr s)) s))

/-- SYNC_R: RPTR_P moves to a free value between the old copy and RPTR (R123, log 12), and to RPTR once that has stood still
over EVQ_LAG of these steps (R173, log 33). With EVQ_LAG = 0 the copy is the cursor and nothing moves (R31). -/
def execSyncR (s : State) : Answer :=
  if s.cfg.evqLag = 0 then .next s
  else
    let past := syncPast s.cfg.evqLag s.rptr s.rptrPast
    .next { s with rptrP := syncCopy s s.rptrP s.rptr past, rptrPast := past, draws := s.draws + 1 }

/-- SYNC_W: WPTR_C moves to a free value between the old copy and WPTR (R123, log 12), and to WPTR once that has stood still
over EVQ_LAG of these steps (R173, log 33). With EVQ_LAG = 0 the copy is the cursor and nothing moves (R31). -/
def execSyncW (s : State) : Answer :=
  if s.cfg.evqLag = 0 then .next s
  else
    let past := syncPast s.cfg.evqLag s.wptr s.wptrPast
    .next { s with wptrC := syncCopy s s.wptrC s.wptr past, wptrPast := past, draws := s.draws + 1 }

end Sys2Proof.Machine
end

