-- ==== Sys2Proof/Machine/HostTape.lean ====
section
/-! DEFINITION. The host contract (`44_host_tape.md`): VALIDATE, SEND, and HOST going on with the procedure it is in. -/

namespace Sys2Proof.Machine

/-- VALIDATE(buf, n): "it writes nothing, touches no port of the block" (R128). It is one step (R5): no other agent acts
between its checks (R142; DESIGN CHOICE, log 36). -/
def execValidate (buf : List Byte) (n : Nat) (s : State) : Answer :=
  if ¬ ImageOk s.cfg buf n then .refused .imagePrecondition
  else whenHostFree s (.next (observe (.validated (validateResult s.cfg buf n)) s))

/-- The start of SEND: it fails at once where VALIDATE does, with nothing enqueued (R135), and otherwise waits T_SETTLE
(R131). Its VALIDATE is part of this one step (R5, R142; DESIGN CHOICE, log 36) and leaves no item of its own in the trace
(R172; DESIGN CHOICE, log 35). -/
def beginSend (name buf : List Byte) (n : Nat) (s : State) : State :=
  match validateImage s.cfg buf n with
  | .error c => observe (.sent (raise c)) s
  | .ok len => { s with host := .settle s.cfg.tSettle name (buf.take len) }

/-- SEND(name, buf, n) (R130). One HOST: refused while HOST is in another SEND or a blocked ENQUEUE (X39, log 10). A HOST
that waits in DRAIN_WAIT has no such step (R58, log 29). -/
def execSend (name buf : List Byte) (n : Nat) (s : State) : Answer :=
  if ¬ ImageOk s.cfg buf n then .refused .imagePrecondition
  else if ¬ NameOk name then .refused .nameWithoutEndMarker
  else
    match s.host with
    | .idle => .next (beginSend name buf n s)
    | .drain => .next s
    | .enqueue _ | .settle _ _ _ | .sendName _ _ | .sendPayload _ _ _ | .sendDrain => .refused .hostBusy

/-- Where SEND stands after a name byte `b`: "the first byte with bit 7 set is sent and ends the step" (R132). -/
def afterNameByte (b : Byte) (rest payload : List Byte) : HostProc :=
  if b.msb then .sendPayload payload 0 payload.length else .sendName rest payload

/-- Where SEND stands after the payload byte of offset `k` (R133). -/
def afterPayloadByte (rest : List Byte) (k len : Nat) : HostProc :=
  if rest = [] then .sendDrain else .sendPayload rest (k + 1) len

/-- The report after the payload byte of offset `k`, at every PROGRESS_STEP-th (R133). -/
def reportProgress (k len : Nat) (s : State) : State :=
  if (k + 1) % s.cfg.source.progressStep = 0 then observe (.progress (progressPercent k len)) s else s

/-- SEND, step 4: the drain, then 100 percent, then success (R134). -/
def sendCompletes (s : State) : State :=
  observe (.sent (.ok ())) (observe (.progress 100) (drainReturns s))

/-- One turn of HOST in the procedure it is in: it moves on, or goes on waiting (R78, R80, R130 to R134).
A look at TX_BUSY that goes on waiting leaves no item in the trace; the return of the drain, of SEND's too, leaves one
(R172; DESIGN CHOICE, log 35). -/
def hostTurn (s : State) : Answer :=
  match s.host with
  | .idle => .next s
  | .enqueue d => .next (presentByte d s)
  | .drain => .next (if txBusy s then s else drainReturns s)
  | .settle left name payload =>
    .next { s with host := if 1 < left then .settle (left - 1) name payload else .sendName name payload }
  | .sendName [] _ => .refused .nameWithoutEndMarker
  | .sendName (b :: rest) payload =>
    .next (if txFull s then s else acceptByte b { s with host := afterNameByte b rest payload })
  | .sendPayload [] _ _ => .next { s with host := .sendDrain }
  | .sendPayload (b :: rest) k len =>
    .next (if txFull s then s else reportProgress k len (acceptByte b { s with host := afterPayloadByte rest k len }))
  | .sendDrain => .next (if txBusy s then s else sendCompletes s)

end Sys2Proof.Machine
end

