-- ==== Sys2Proof/Machine/Pte.lean ====
section
/-! DEFINITION. The Pulse Timing Engine (`40_pte.md`): ENQUEUE, TX_NOREQ, IS_DRAINING, DRAIN_WAIT, PTE_TICK. -/

namespace Sys2Proof.Machine

/-- ENQUEUE(d) (R78). A HOST that is blocked on a byte presents that byte and no other; a second transmitter is refused
(X39, log 10). A HOST that waits in DRAIN_WAIT has no such step (R58, log 29). -/
def execEnqueue (d : Byte) (s : State) : Answer :=
  match s.host with
  | .idle => .next (presentByte d s)
  | .enqueue held => if held = d then .next (presentByte d s) else .refused .hostBusy
  | .drain => .next s
  | .settle _ _ _ | .sendName _ _ | .sendPayload _ _ _ | .sendDrain => .refused .hostBusy

/-- TX_NOREQ: "A TXW with `v = 0` is no operation and changes nothing" (R78). -/
def execTxNoreq (_x : Byte) (s : State) : Answer := .next s

/-- IS_DRAINING: returns TX_BUSY, no side effect (R79). HOST performs it between its procedures, and again and again
in a DRAIN_WAIT (R80); in any other procedure it has no such step (log 29). -/
def execIsDraining (s : State) : Answer :=
  match s.host with
  | .idle | .drain | .sendDrain => .next (observe (.busy (txBusy s)) s)
  | .enqueue _ | .settle _ _ _ | .sendName _ _ | .sendPayload _ _ _ => .next s

/-- DRAIN_WAIT: completes when `TX_BUSY = 0`, with no state change; until then HOST waits in it (R80). Its looks at
TX_BUSY leave no item in the trace, its return one (R172; DESIGN CHOICE, log 35). In another procedure HOST has no such step
(log 29). -/
def execDrainWait (s : State) : Answer :=
  match s.host with
  | .idle | .drain => .next (if txBusy s then { s with host := .drain } else drainReturns s)
  | .enqueue _ | .settle _ _ _ | .sendName _ _ | .sendPayload _ _ _ | .sendDrain => .next s

/-! ### The four arms of PTE_TICK -/

/-- PTE_TICK in `PH = IDLE`: load or stay (R82). -/
def tickIdle (s : State) : State := loadByte s s

/-- PTE_TICK in `PH = HI`: count the high half of a pulse (R84). -/
def tickHi (s : State) : State :=
  if 1 < s.tmr then { s with tmr := s.tmr - 1 } else { s with ph := .lo, tmr := s.cfg.tLo }

/-- PTE_TICK in `PH = LO`: count the low half, then the next pulse or the gap (R85). -/
def tickLo (s : State) : State :=
  if 1 < s.tmr then { s with tmr := s.tmr - 1 }
  else if 0 < s.np then { s with np := s.np - 1, ph := .hi, tmr := s.cfg.tHi }
  else { s with ph := .gap, tmr := s.cfg.tGap }

/-- PTE_TICK in `PH = GAP`: count the silence, then the next bit, the next byte, or idle (R86). -/
def tickGap (s : State) : State :=
  if 1 < s.tmr then { s with tmr := s.tmr - 1 }
  else if 0#4 < s.nb then startBit s.sr s.nb s
  else loadByte s { s with ph := .idle, tmr := 0 }

/-- The state change of PTE_TICK (R81). -/
def tick (s : State) : State :=
  match s.ph with
  | .idle => tickIdle s
  | .hi => tickHi s
  | .lo => tickLo s
  | .gap => tickGap s

/-- PTE_TICK: the state change, and the level of the line after it (R81, R172). DIVCNT is not read or written here
(R18). -/
def execPteTick (s : State) : Answer := .next (observe (.out (out (tick s))) (tick s))

end Sys2Proof.Machine
end

