-- ==== Sys2Proof/Machine/Qdec.lean ====
section
/-! DEFINITION. The hardware sampler and the quadrature decoder (`41_qdec.md`): SMP_CAPTURE and QDEC_STEP. -/

namespace Sys2Proof.Machine

/-- SMP_CAPTURE(a, b): enabled when `{a, b} != PHASE` (R97); where the lines have not changed there is no transition and
nothing happens (log 8). The operands are the levels of the lines (log 7). -/
def execSmpCapture (a b : Bool) (s : State) : Answer :=
  if phaseOf a b = s.phase then .next s
  else .next { pushSample (sampleOf (phaseOf a b) s.phase) s with phase := phaseOf a b, lines := phaseOf a b }

/-- QDEC_STEP on the sample `x`: enabled when `x` is the head of SMPQ (R72, R99). Where it is not, QDEC has no step and
nothing happens (log 8). -/
def qdecStep (x : Sample) (s : State) : State :=
  match s.smpq with
  | [] => s
  | head :: rest =>
    if head = x then publishSome (classify x).event { s with smpq := rest, lastSample := x } else s

/-- QDEC_STEP on `0x0` (R99, R100). -/
def execQdecNone0 (s : State) : Answer := .next (qdecStep 0x0#4 s)
/-- QDEC_STEP on `0x1` (R99, R100). -/
def execQdecNone1 (s : State) : Answer := .next (qdecStep 0x1#4 s)
/-- QDEC_STEP on `0x2` (R99, R100). -/
def execQdecNone2 (s : State) : Answer := .next (qdecStep 0x2#4 s)
/-- QDEC_STEP on `0x3` (R99, R100). -/
def execQdecNone3 (s : State) : Answer := .next (qdecStep 0x3#4 s)
/-- QDEC_STEP on `0x4`, class INCREASE (R99, R100). -/
def execQdecIncrease (s : State) : Answer := .next (qdecStep 0x4#4 s)
/-- QDEC_STEP on `0x5` (R99, R100). -/
def execQdecNone5 (s : State) : Answer := .next (qdecStep 0x5#4 s)
/-- QDEC_STEP on `0x6` (R99, R100). -/
def execQdecNone6 (s : State) : Answer := .next (qdecStep 0x6#4 s)
/-- QDEC_STEP on `0x7` (R99, R100). -/
def execQdecNone7 (s : State) : Answer := .next (qdecStep 0x7#4 s)
/-- QDEC_STEP on `0x8` (R99, R100). -/
def execQdecNone8 (s : State) : Answer := .next (qdecStep 0x8#4 s)
/-- QDEC_STEP on `0x9` (R99, R100). -/
def execQdecNone9 (s : State) : Answer := .next (qdecStep 0x9#4 s)
/-- QDEC_STEP on `0xA` (R99, R100). -/
def execQdecNoneA (s : State) : Answer := .next (qdecStep 0xA#4 s)
/-- QDEC_STEP on `0xB`, class DECREASE (R99, R100). -/
def execQdecDecrease (s : State) : Answer := .next (qdecStep 0xB#4 s)
/-- QDEC_STEP on `0xC` (R99, R100). -/
def execQdecNoneC (s : State) : Answer := .next (qdecStep 0xC#4 s)
/-- QDEC_STEP on `0xD` (R99, R100). -/
def execQdecNoneD (s : State) : Answer := .next (qdecStep 0xD#4 s)
/-- QDEC_STEP on `0xE` (R99, R100). -/
def execQdecNoneE (s : State) : Answer := .next (qdecStep 0xE#4 s)
/-- QDEC_STEP on `0xF` (R99, R100). -/
def execQdecNoneF (s : State) : Answer := .next (qdecStep 0xF#4 s)

end Sys2Proof.Machine
end

