-- ==== Sys2Proof/Machine/System.lean ====
section
/-! DEFINITION. Reset (`70_reset_and_hazards.md`). -/

namespace Sys2Proof.Machine

/-- RESET: the assertion and release of `rst` (R75, R152, R153). -/
def execReset (s : State) : Answer := .next (resetBlock s)

end Sys2Proof.Machine
end

