-- ==== Sys2Proof/Machine/Dispatch.lean ====
section
/-! DEFINITION. The meaning of every operation, one arm per constructor of Instr. -/

namespace Sys2Proof.Machine

/-- What performing an operation does (R5, R72). -/
def exec (i : Instr) (s : State) : Host.Outcome State Fault Refusal :=
  match i with
  | .enqueue d => Sys2Proof.Machine.execEnqueue d s
  | .txNoreq x => Sys2Proof.Machine.execTxNoreq x s
  | .isDraining => Sys2Proof.Machine.execIsDraining s
  | .drainWait => Sys2Proof.Machine.execDrainWait s
  | .pteTick => Sys2Proof.Machine.execPteTick s
  | .smpCapture a b => Sys2Proof.Machine.execSmpCapture a b s
  | .qdecNone0 => Sys2Proof.Machine.execQdecNone0 s
  | .qdecNone1 => Sys2Proof.Machine.execQdecNone1 s
  | .qdecNone2 => Sys2Proof.Machine.execQdecNone2 s
  | .qdecNone3 => Sys2Proof.Machine.execQdecNone3 s
  | .qdecIncrease => Sys2Proof.Machine.execQdecIncrease s
  | .qdecNone5 => Sys2Proof.Machine.execQdecNone5 s
  | .qdecNone6 => Sys2Proof.Machine.execQdecNone6 s
  | .qdecNone7 => Sys2Proof.Machine.execQdecNone7 s
  | .qdecNone8 => Sys2Proof.Machine.execQdecNone8 s
  | .qdecNone9 => Sys2Proof.Machine.execQdecNone9 s
  | .qdecNoneA => Sys2Proof.Machine.execQdecNoneA s
  | .qdecDecrease => Sys2Proof.Machine.execQdecDecrease s
  | .qdecNoneC => Sys2Proof.Machine.execQdecNoneC s
  | .qdecNoneD => Sys2Proof.Machine.execQdecNoneD s
  | .qdecNoneE => Sys2Proof.Machine.execQdecNoneE s
  | .qdecNoneF => Sys2Proof.Machine.execQdecNoneF s
  | .debTick level => Sys2Proof.Machine.execDebTick level s
  | .debNotick x => Sys2Proof.Machine.execDebNotick x s
  | .publishUp => Sys2Proof.Machine.execPublishUp s
  | .publishDown => Sys2Proof.Machine.execPublishDown s
  | .publishEnter => Sys2Proof.Machine.execPublishEnter s
  | .poll => Sys2Proof.Machine.execPoll s
  | .noPoll => Sys2Proof.Machine.execNoPoll s
  | .syncR => Sys2Proof.Machine.execSyncR s
  | .syncW => Sys2Proof.Machine.execSyncW s
  | .validate buf n => Sys2Proof.Machine.execValidate buf n s
  | .send name buf n => Sys2Proof.Machine.execSend name buf n s
  | .reset => Sys2Proof.Machine.execReset s

end Sys2Proof.Machine
end

