-- ==== Sys2Proof/Machine/Schedule.lean ====
section
/-! DEFINITION. What one slot of the total order does (`20_memory.md` R52): the operation an agent asks for, two
operations of one clock cycle, a `clk_sys` cycle, a change of an input; and how the host's table words are placed. -/

namespace Sys2Proof.Machine

/-- What a request comes to in a state. -/
inductive Action
  /-- An operation. -/
  | op (i : Instr)
  /-- HOST goes on with the procedure it is in. -/
  | hostTurn
  /-- The agent has nothing to do: no strobe, or no sample to take. -/
  | nothing
  /-- The word is turned away by name. -/
  | refuse (r : Refusal)
deriving DecidableEq, Repr

/-- The refusal a rejected word ends in. -/
def refusalOf : DecodeError → Refusal
  | .noneEventCode => .noneEventCode

/-- The action a word on a port selects (R72). -/
def actionOfWord (w : PortWord) : Action :=
  match decode w with
  | .op i => .op i
  | .quiet => .nothing
  | .rejected e => .refuse (refusalOf e)

/-- The action of a request. QDEC's word is the head of SMPQ, and QDEC is enabled only where there is one (R99,
R101). -/
def resolve (r : Config.Request) (s : State) : Action :=
  match r with
  | .word w => actionOfWord w
  | .takeSample =>
    match s.smpq with
    | [] => .nothing
    | x :: _ => actionOfWord (.smp x)
  | .hostTurn => .hostTurn

/-- Performs an action. -/
def perform (a : Action) (s : State) : Answer :=
  match a with
  | .op i => exec i s
  | .hostTurn => hostTurn s
  | .nothing => .next s
  | .refuse r => .refused r

/-! ### Two operations in one clock cycle -/

/-- The pulse tick. -/
def isTick (a : Action) : Bool := a == .op .pteTick

/-- HOST presents a byte: an ENQUEUE, or a turn of a procedure that holds one (R78). -/
def presents (a : Action) (s : State) : Bool :=
  match a with
  | .op (.enqueue _) => true
  | .op _ => false
  | .hostTurn => (presented s).isSome
  | .nothing | .refuse _ => false

/-- A POLL. -/
def isPoll (a : Action) : Bool := a == .op .poll

/-- An operation of QDEC, one of the two producers. -/
def byQdec (a : Action) : Bool :=
  match a with
  | .op i => agentOf i == .qdec
  | .hostTurn | .nothing | .refuse _ => false

/-- An operation of DEB, the other producer. -/
def byDeb (a : Action) : Bool :=
  match a with
  | .op i => agentOf i == .deb
  | .hostTurn | .nothing | .refuse _ => false

/-- An operation that may publish. -/
def mayPublish (a : Action) : Bool := byQdec a || byDeb a

/-- Whether the order of the two producers is left to a free value (R119). -/
def drawsOrder (a b : Action) (s : State) : Bool :=
  s.cfg.evqArb == .any && ((byQdec a && byDeb b) || (byDeb a && byQdec b))

/-- Whether QDEC is first of two producers in one instant: the order EVQ_ARB gives (R119). -/
def qdecFirst (s : State) : Bool :=
  match s.cfg.evqArb with
  | .any => Config.qdecWins s.draws
  | .qdecFirst => true
  | .debFirst => false

/-- Whether `a` is performed before `b`, both read at the start of the cycle: "PTE_TICK, then ENQUEUE if it was enabled
before the PTE_TICK" (R90); with the queue full "PUBLISH, then POLL", with the queue empty "POLL, then PUBLISH", and
"in every other state the two commute" (R120); two producers as EVQ_ARB says (R119); any other two in the order they
are listed (log 14). -/
def goesFirst (a b : Action) (s : State) : Bool :=
  if isTick a && presents b s then !txFull s
  else if presents a s && isTick b then txFull s
  else if mayPublish a && isPoll b then evqFull s
  else if isPoll a && mayPublish b then !evqFull s
  else if byQdec a && byDeb b then qdecFirst s
  else if byDeb a && byQdec b then !qdecFirst s
  else true

/-- What a request comes to is settled when its turn comes: QDEC takes the sample that is then the head of SMPQ. -/
def performRequest (r : Config.Request) (s : State) : Answer := perform (resolve r s) s

/-- Two operations of one clock cycle, one after the other (R52). Which is first is settled on the state at the start of
the cycle; the second acts on the state the first leaves. Where no rule orders the two, SMP_CAPTURE and QDEC's taking of
a sample among them, the listed order is the order, and either listing is a run (DESIGN CHOICE, log 14). -/
def performBoth (r₁ r₂ : Config.Request) (s : State) : Answer :=
  let a := resolve r₁ s
  let b := resolve r₂ s
  let s₁ := if drawsOrder a b s then { s with draws := s.draws + 1 } else s
  if goesFirst a b s then andThen (performRequest r₁ s₁) (performRequest r₂)
  else andThen (performRequest r₂ s₁) (performRequest r₁)

/-! ### A `clk_sys` cycle -/

/-- What QDEC sees in a clock cycle: `smp_pending`, as it is at the start of the cycle (R23, R172; log 18). The cycle
is one of `clk_sys` and of the producer clock at once, whatever EVQ_LAG is (R10, R122; DESIGN CHOICE, log 37). -/
def showPending (s : State) : State := observe (.smpPending (smpPending s)) s

/-- The request of the pulse tick (R81). -/
def tickRequest : Config.Request := .word (.pulse 1#1)

/-- "The cycle in which it wraps from DIV - 1 to 0 is a pulse tick" (R18). -/
def divWraps (s : State) : Bool := s.cfg.div ≤ s.divcnt + 1

/-- DIVCNT after one `clk_sys` cycle (R18). -/
def countCycle (s : State) : State := { s with divcnt := if divWraps s then 0 else s.divcnt + 1 }

/-- A `clk_sys` cycle: the divider counts, and the operation of the cycle is performed (R18). A cycle in which the divider
wraps is a pulse tick as well. The rules order PTE_TICK and a byte that HOST presents (R90); PTE_TICK and any other
operation, IS_DRAINING, DRAIN_WAIT, POLL and RESET among them, come in the order the slot says (DESIGN CHOICE, log 14).
The wrap is "the only cycle in which PTE_TICK is performed" (R18): a pulse strobe asked for by the slot counts for
nothing (log 26). -/
def clockCycle (r : Config.Request) (tickFirst : Bool) (s : State) : Answer :=
  if divWraps s then
    if r = tickRequest then performRequest tickRequest (countCycle s)
    else if tickFirst then performBoth tickRequest r (countCycle s)
    else performBoth r tickRequest (countCycle s)
  else if r = tickRequest then .next (countCycle s)
  else performRequest r (countCycle s)

/-! ### One slot -/

/-- What a slot does (log 1). A slot that is a clock cycle shows `smp_pending` (log 18), once, as a cycle of
`clk_sys` and of the producer clock alike, whatever EVQ_LAG is (DESIGN CHOICE, log 37). Only a `clock` slot counts DIVCNT:
a `sameCycle` slot leaves it as it is, and a pulse strobe it lists is a tick without a wrap (DESIGN CHOICE, log 34). -/
def runSlot (x : Config.Slot) (s : State) : Answer :=
  match x with
  | .one r => performRequest r s
  | .sameCycle r₁ r₂ => performBoth r₁ r₂ (showPending s)
  | .clock r tickFirst => clockCycle r tickFirst (showPending s)
  | .lines l => .next { s with lines := l }
  | .sample x => .next (pushSample x s)

/-- Takes the next slot: the oldest of the script, or, where the script is empty, the next of the environment's (log 2). -/
def nextSlot (s : State) : Config.Slot × State :=
  match s.script with
  | x :: rest => (x, { s with script := rest })
  | [] => (Config.environment s.draws, { s with draws := s.draws + 1 })

/-- One step: the next slot, in a machine whose parameters are legal (R74). -/
def runStep (s : State) : Answer :=
  if s.cfg.Legal then runSlot (nextSlot s).1 (nextSlot s).2 else .refused .illegalConfiguration

/-! ### Placing a table word -/

/-- Puts a word where the next step takes it: a sample at the head of SMPQ, taken by QDEC; any other word as the word of
the next slot (log 1, log 16). -/
def placeWord (w : PortWord) (s : State) : State :=
  match w with
  | .smp x => { s with smpq := x :: s.smpq.tail, script := .one .takeSample :: s.script }
  | .txw _ | .txBusy | .drainWait | .pulse _ | .phv _ | .dbw _ | .evc _ | .popw _ | .syncR | .syncW
  | .validate _ _ | .send _ _ _ | .rst _ => { s with script := .one (.word w) :: s.script }

/-- The table's word placed; a number that is no word of the table changes nothing. -/
def placeTableWord (s : State) (nbits w : Nat) : State :=
  match tableWord nbits w with
  | some pw => placeWord pw s
  | none => s

end Sys2Proof.Machine
end

