-- ==== Sys2Proof/Machine/Step.lean ====
section
/-! DEFINITION. One step of the machine, and how a word of the operation table is made the next operation. -/

namespace Sys2Proof.Machine

/-- One step: the next operation of the total order is performed (R52). -/
def step (s : State) : Host.Outcome State Fault Refusal := runStep s

/-- The state with the word of a table row made the operation of the very next step. -/
def State.withFetchWord (s : State) (nbits w : Nat) : State := placeTableWord s nbits w

end Sys2Proof.Machine
end

