-- ==== Sys2Proof/Safety.lean ====
section
/-! DEFINITION. What a safe run is, in the terms the claims use: the invariants of R38, the quiescent states of R173, the
waveform of R70 and R71 as a list of line levels, and the abstract contents of the queues. -/

namespace Sys2Proof.Machine

/-! ### Runs of operations -/

/-- The operations of a list, one after the other (a run, R172). -/
def runOps : List Instr → State → Answer
  | [], s => .next s
  | i :: rest, s => andThen (exec i s) (runOps rest)

/-- `n` turns of HOST with nothing in between. -/
def runTurns : Nat → State → Answer
  | 0, s => .next s
  | n + 1, s => andThen (hostTurn s) (runTurns n)

/-- What can fall between two looks at a run in which HOST goes on with a procedure: a turn of HOST, or an operation. -/
inductive Move
  | turn
  | op (i : Instr)
deriving DecidableEq, Repr

/-- Performs one move. -/
def runMove (m : Move) (s : State) : Answer :=
  match m with
  | .turn => hostTurn s
  | .op i => exec i s

/-- The moves of a list, one after the other. -/
def runMoves : List Move → State → Answer
  | [], s => .next s
  | m :: rest, s => andThen (runMove m s) (runMoves rest)

/-! ### Infinite runs and their fairness (R8, R93, R101, R123, R173) -/

/-- An infinite run (R172) under an infinite schedule: each state comes from the one before by one slot. A step of the
machine takes its slots from the script in just this way (log 1). -/
def IsRun (slots : Nat → Config.Slot) (run : Nat → State) : Prop :=
  ∀ n, (run n).cfg.Legal ∧ runSlot (slots n) (run n) = .next (run (n + 1))

/-- The requests of a slot. -/
def requestsOf : Config.Slot → List Config.Request
  | .one r => [r]
  | .sameCycle r₁ r₂ => [r₁, r₂]
  | .clock r _ => [r]
  | .lines _ | .sample _ => []

/-- A request of QDEC: its turn, or a sample on the port it takes samples from (R6, R99). -/
def asksQdec : Config.Request → Bool
  | .takeSample | .word (.smp _) => true
  | .word (.txw _) | .word .txBusy | .word .drainWait | .word (.pulse _) | .word (.phv _) | .word (.dbw _) => false
  | .word (.evc _) | .word (.popw _) | .word .syncR | .word .syncW | .word (.validate _ _) => false
  | .word (.send _ _ _) | .word (.rst _) | .hostTurn => false

/-- How many QDEC_STEPs a slot asks for. -/
def qdecRequests (x : Config.Slot) : Nat := (requestsOf x).countP asksQdec

/-- The slot performs PTE_TICK: in a `clk_sys` cycle when the divider wraps, elsewhere when it is asked for. -/
def ticks (x : Config.Slot) (s : State) : Prop :=
  match x with
  | .clock _ _ => divWraps s = true
  | .one _ | .sameCycle _ _ | .lines _ | .sample _ => tickRequest ∈ requestsOf x

/-- Weak fairness, "the only liveness assumption" (R8): PTE_TICK and DEB_TICK, always enabled, are performed again and
again; QDEC gets its turn again if SMPQ stays nonempty (R101); with lagging cursors SYNC_R and SYNC_W are performed again
and again (R123). "A model assumes" it of its infinite runs (R93); nothing is assumed of HOST (R173). -/
structure WeaklyFair (slots : Nat → Config.Slot) (run : Nat → State) : Prop where
  pte : ∀ n, ∃ m, n ≤ m ∧ ticks (slots m) (run m)
  deb : ∀ n, ∃ m level, n ≤ m ∧ .word (encode (.debTick level)) ∈ requestsOf (slots m)
  qdec : ∀ n, (∀ m, n ≤ m → smpPending (run m) = true) → ∃ m, n ≤ m ∧ .takeSample ∈ requestsOf (slots m)
  syncR : 0 < (run 0).cfg.evqLag → ∀ n, ∃ m, n ≤ m ∧ .word .syncR ∈ requestsOf (slots m)
  syncW : 0 < (run 0).cfg.evqLag → ∀ n, ∃ m, n ≤ m ∧ .word .syncW ∈ requestsOf (slots m)

/-- From slot `n` on, no RESET is asked for. -/
def NoResetFrom (slots : Nat → Config.Slot) (n : Nat) : Prop := ∀ m, n ≤ m → .word (.rst 1#1) ∉ requestsOf (slots m)

/-! ### The invariants of R38 -/

/-- R38 items 1 to 5 for the PTE, the sample queue and the debouncer, with what makes them inductive: the bits of SR
that are not yet used up are its first NB in transmission order, the others are 0; and NB is at most 7 between operations,
because the operation that loads a byte also counts off its first bit (R38 item 4 says at most 8). -/
structure EngineInv (s : State) : Prop where
  txq : s.txq.length ≤ s.cfg.txqDepth
  smpq : s.smpq.length ≤ s.cfg.smpqDepth
  idle_iff : s.ph = .idle ↔ s.tmr = 0
  idle_clear : s.ph = .idle → s.nb = 0#4 ∧ s.np = 0 ∧ s.sr = 0#8
  hi : s.ph = .hi → 1 ≤ s.tmr ∧ s.tmr ≤ s.cfg.tHi
  lo : s.ph = .lo → 1 ≤ s.tmr ∧ s.tmr ≤ s.cfg.tLo
  gap : s.ph = .gap → 1 ≤ s.tmr ∧ s.tmr ≤ s.cfg.tGap ∧ s.np = 0
  nb : s.nb.toNat ≤ 7
  np : s.np ≤ max s.cfg.n0 s.cfg.n1 - 1
  shifted : if s.cfg.msbFirst then s.sr <<< s.nb.toNat = 0#8 else s.sr >>> s.nb.toNat = 0#8
  divcnt : s.divcnt < s.cfg.div
  cnt : s.cnt.toNat ≤ s.cfg.source.debTicks.toNat

/-- R38 items 6 and 7: the event queue. -/
structure QueueInv (s : State) : Prop where
  cap : s.cfg.source.evqCap ≤ Config.document.evqSlots
  count : evCount s ≤ s.cfg.source.evqCap
  unread : ∀ k : Nat, k < evCount s → slotAt s (s.rptr + BitVec.ofNat Config.document.evqPtrW k) ≠ 0b00#2
  producer : 0 < s.cfg.evqLag →
    cursorDistance s.rptrP s.rptr ≤ cursorDistance s.rptrP s.wptr ∧
      cursorDistance s.rptrP s.wptr ≤ s.cfg.source.evqCap
  consumer : 0 < s.cfg.evqLag → cursorDistance s.rptr s.wptrC ≤ cursorDistance s.rptr s.wptr

/-- A SEND in progress still has an end marker ahead of it while it sends the name, and its payload is counted. -/
def HostOk : HostProc → Prop
  | .settle left name payload => 1 ≤ left ∧ NameOk name ∧ payload ≠ []
  | .sendName name payload => NameOk name ∧ payload ≠ []
  | .sendPayload rest k len => rest ≠ [] ∧ k + rest.length = len
  | .idle | .enqueue _ | .drain | .sendDrain => True

/-- The invariant of the machine. -/
structure Inv (s : State) : Prop where
  legal : s.cfg.Legal
  engine : EngineInv s
  queue : QueueInv s
  host : HostOk s.host

/-! ### Quiescent states (R173) -/

/-- Transmit-quiescent: `TX_BUSY = 0` (R173 item 1). -/
abbrev TransmitQuiescent (s : State) : Prop := txBusy s = false

/-- Input-quiescent under the switch level `level`: `SMPQ = []`, `CNT = 0`, `sw_level = ACC`, and with EVQ_LAG > 0 each
copy equal to its cursor (R173 item 2). -/
abbrev InputQuiescent (level : Bool) (s : State) : Prop :=
  s.smpq = [] ∧ s.cnt = 0#4 ∧ level = s.acc ∧ rptrSeen s = s.rptr ∧ wptrSeen s = s.wptr

/-- Quiescent: both (R173 item 3). -/
abbrev Quiescent (level : Bool) (s : State) : Prop := TransmitQuiescent s ∧ InputQuiescent level s

/-! ### The waveform (R70, R71) -/

/-- `pulse = 1^T_HI 0^T_LO` (R70). -/
def pulse (p : Config.Params) : List Bool := List.replicate p.tHi true ++ List.replicate p.tLo false

/-- `n` pulses back to back. -/
def pulseTrain (p : Config.Params) (n : Nat) : List Bool := (List.replicate n (pulse p)).flatten

/-- `0^T_GAP`. -/
def silence (p : Config.Params) : List Bool := List.replicate p.tGap false

/-- `frame(b) = pulse^N(b) 0^T_GAP` (R70). -/
def bitFrame (p : Config.Params) (b : Bool) : List Bool := pulseTrain p (p.pulses b) ++ silence p

/-- The bits of a byte in transmission order: bit 7 first when MSB_FIRST is true, bit 0 first when it is false (R47). -/
def bitOrder (p : Config.Params) : List Nat :=
  if p.msbFirst then [7, 6, 5, 4, 3, 2, 1, 0] else [0, 1, 2, 3, 4, 5, 6, 7]

/-- `W(d)`, the byte frame of `d` (R71). -/
def wave (p : Config.Params) (d : Byte) : List Bool := (bitOrder p).flatMap fun i => bitFrame p (d.getLsbD i)

/-- `W(d0) W(d1) ...` (R71). -/
def waves (p : Config.Params) (ds : List Byte) : List Bool := ds.flatMap (wave p)

/-- `ones(d)`, the number of 1 bits of `d` (R71). -/
def ones (d : Byte) : Nat := ([0, 1, 2, 3, 4, 5, 6, 7].filter fun i => d.getLsbD i).length

/-- The bit frames of the first `n` bits, in transmission order, of what SR holds. -/
def framesLeft (p : Config.Params) : Nat → Byte → List Bool
  | 0, _ => []
  | n + 1, sr =>
    bitFrame p (if p.msbFirst then sr.msb else sr.getLsbD 0) ++
      framesLeft p n (if p.msbFirst then sr <<< 1 else sr >>> 1)

/-- The levels still to come of the byte in flight. -/
def restOfByte (s : State) : List Bool :=
  match s.ph with
  | .idle => []
  | .hi => List.replicate (s.tmr - 1) true ++ (List.replicate s.cfg.tLo false ++ (pulseTrain s.cfg s.np ++ (silence s.cfg ++
      framesLeft s.cfg s.nb.toNat s.sr)))
  | .lo => List.replicate (s.tmr - 1) false ++ (pulseTrain s.cfg s.np ++ (silence s.cfg ++ framesLeft s.cfg s.nb.toNat s.sr))
  | .gap => List.replicate (s.tmr - 1) false ++ framesLeft s.cfg s.nb.toNat s.sr

/-- The levels the line will show, tick by tick, if nothing more is enqueued; after them it stays low. -/
def lineFuture (s : State) : List Bool := restOfByte s ++ waves s.cfg s.txq

/-- LMAX, the longest byte frame (R88). -/
def longestFrame (p : Config.Params) : Nat := 8 * (max p.n0 p.n1 * (p.tHi + p.tLo) + p.tGap)

/-! ### The contents of the event queue (R117) -/

/-- The unread events, oldest first. -/
def unread (s : State) : List EventCode :=
  (List.range (evCount s)).map fun k => slotAt s (s.rptr + BitVec.ofNat Config.document.evqPtrW k)

/-! ### The bytes a SEND has still to present (R130) -/

/-- What HOST has still to enqueue: the rest of the name, then the rest of the payload. -/
def bytesToSend : HostProc → List Byte
  | .settle _ name payload => sentName name ++ payload
  | .sendName name payload => sentName name ++ payload
  | .sendPayload rest _ _ => rest
  | .enqueue d => [d]
  | .idle | .drain | .sendDrain => []

/-- The bytes of the `accepted` observations of a trace, in order. -/
def acceptedBytes (tr : List Observation) : List Byte :=
  tr.filterMap fun o => match o with
    | .accepted d => some d
    | .out _ | .smpPending _ | .busy _ | .drained | .polled _ | .peeked _ | .validated _ | .progress _ | .sent _ => none

/-- The percentages of the `progress` observations of a trace, in order. -/
def progressReports (tr : List Observation) : List Nat :=
  tr.filterMap fun o => match o with
    | .progress x => some x
    | .accepted _ | .out _ | .smpPending _ | .busy _ | .drained | .polled _ | .peeked _ | .validated _ | .sent _ => none

end Sys2Proof.Machine
end

