-- ==== Sys2Proof/Certificates/Slice0/Obligations.lean ====
section
/-! DEFINITION. The statements for the provers. `exec` and `step` are those of the model; where a statement gives the next
state as a record update, every field it does not name is unchanged (the frame). -/

open Sys2Proof Sys2Proof.Machine

/-! ### Words (R60 to R66, R72, R73) -/

/-- Decoding and encoding agree, both ways: a word selects the operation `i` exactly when it is the word of `i`, don't-care
bits included. -/
def Obligations.DecodeEncodeAgree : Prop :=
  ∀ (w : PortWord) (i : Instr), decode w = .op i ↔ encode i = w

/-- A few words written out from R61, R62, R64, R65, R66, R73 and R74. -/
def Obligations.WrittenWordsDecode : Prop :=
  decode (.txw 0b110100101#9) = .op (.enqueue 0xA5#8) ∧
  decode (.txw 0b010100101#9) = .op (.txNoreq 0xA5#8) ∧
  decode (.phv 0b10#2) = .op (.smpCapture true false) ∧
  decode (.smp 0b0100#4) = .op .qdecIncrease ∧
  decode (.smp 0b1011#4) = .op .qdecDecrease ∧
  decode (.smp 0b0111#4) = .op .qdecNone7 ∧
  decode (.dbw 0b11#2) = .op (.debTick true) ∧
  decode (.dbw 0b01#2) = .op (.debNotick true) ∧
  decode (.evc 0b10#2) = .op .publishDown ∧
  decode (.evc 0b00#2) = .rejected .noneEventCode ∧
  decode (.popw 0b1#1) = .op .poll

/-- R73: exactly one value, `0x4`, is INCREASE; exactly one, `0xB`, is DECREASE; fourteen are NONE. -/
def Obligations.SampleClassesByValue : Prop :=
  ∀ x : Sample, (classify x = .increase ↔ x = 0x4#4) ∧ (classify x = .decrease ↔ x = 0xB#4) ∧
    (classify x = .none ↔ x ≠ 0x4#4 ∧ x ≠ 0xB#4)

/-! ### Steps and slots (R52, R90, R101, R119, R120, R18) -/

/-- The step on a slot that carries a word runs the operation the word decodes to, on the state with the slot taken off
the script (log 1). -/
def Obligations.StepRunsDecodedWord : Prop :=
  ∀ (w : PortWord) (i : Instr) (rest : List Config.Slot) (s : State),
    s.cfg.Legal → s.script = .one (.word w) :: rest → decode w = .op i →
      step s = exec i { s with script := rest }

/-- The step on QDEC's slot runs QDEC_STEP on the head of SMPQ, and does nothing where SMPQ is empty (log 1, log 8). -/
def Obligations.StepTakesHeadSample : Prop :=
  ∀ (rest : List Config.Slot) (s : State), s.cfg.Legal → s.script = .one .takeSample :: rest →
    (∀ (x : Sample) (i : Instr), s.smpq.head? = some x → decode (.smp x) = .op i →
      step s = exec i { s with script := rest }) ∧
    (s.smpq = [] → step s = .next { s with script := rest })

/-- The step on the other single slots: a turn of HOST, a change of the line levels, a raw sample (log 1, log 7, log 22);
a raw sample that finds SMPQ full is lost. -/
def Obligations.StepTakesInputs : Prop :=
  ∀ (rest : List Config.Slot) (s : State), s.cfg.Legal →
    (s.script = .one .hostTurn :: rest → step s = hostTurn { s with script := rest }) ∧
    (∀ l, s.script = .lines l :: rest → step s = .next { s with script := rest, lines := l }) ∧
    (∀ x, s.script = .sample x :: rest →
      (s.smpq.length < s.cfg.smpqDepth → step s = .next { s with script := rest, smpq := s.smpq ++ [x] }) ∧
      (s.cfg.smpqDepth ≤ s.smpq.length → step s = .next { s with script := rest }))

/-- R90: ENQUEUE and PTE_TICK in the same cycle, listed in either order, are "PTE_TICK, then ENQUEUE if it was enabled
before the PTE_TICK"; an ENQUEUE that was not enabled is not accepted in this cycle, although the tick may pop. The ENQUEUE
is one that HOST begins, or one it goes on with by a turn: the byte of a blocked ENQUEUE, of the name or of the payload of a
SEND. A turn that presents no byte comes where it is listed (log 14). The slot first shows QDEC the `smp_pending` of the
cycle (log 18, log 37) and leaves DIVCNT as it is (log 34). -/
def Obligations.SameCycleTickThenEnqueue : Prop :=
  ∀ (r₁ r₂ : Config.Request) (rest : List Config.Slot) (s u : State), s.cfg.Legal →
    s.script = .sameCycle r₁ r₂ :: rest →
    u = { s with script := rest, trace := s.trace ++ [.smpPending (smpPending s)] } →
    ∃ t, exec .pteTick u = .next t ∧
      (∀ d, s.host = .idle →
        ((r₁ = .word (encode .pteTick) ∧ r₂ = .word (encode (.enqueue d))) ∨
          (r₁ = .word (encode (.enqueue d)) ∧ r₂ = .word (encode .pteTick))) →
        (s.txq.length < s.cfg.txqDepth →
          step s = .next { t with txq := t.txq ++ [d], trace := t.trace ++ [.accepted d] }) ∧
        (s.txq.length = s.cfg.txqDepth → step s = .next { t with host := .enqueue d })) ∧
      (∀ d, presented s = some d →
        ((r₁ = .word (encode .pteTick) ∧ r₂ = .hostTurn) ∨ (r₁ = .hostTurn ∧ r₂ = .word (encode .pteTick))) →
        (s.txq.length < s.cfg.txqDepth → step s = hostTurn t ∧
          ∃ v, hostTurn t = .next v ∧ v.txq = t.txq ++ [d] ∧
            acceptedBytes v.trace = acceptedBytes t.trace ++ [d]) ∧
        (s.txq.length = s.cfg.txqDepth → step s = .next t)) ∧
      (presented s = none →
        (r₁ = .word (encode .pteTick) → r₂ = .hostTurn → step s = hostTurn t) ∧
        (r₁ = .hostTurn → r₂ = .word (encode .pteTick) → step s = andThen (hostTurn u) (exec .pteTick)))

/-- R120: PUBLISH and POLL in the same cycle, with exact cursors, listed in either order. Queue full: the publish is
dropped although the poll frees a slot. Queue empty: the poll returns NONE although the publish stores. Otherwise both
succeed. The publish is a PUBLISH on its own, that of a QDEC_STEP on `0x4` or `0xB`, or that of a DEB_TICK that accepts a
press; `u` is what the rest of that operation leaves, after the `smp_pending` of the cycle was shown (log 18, log 37);
the slot leaves DIVCNT as it is (log 34). -/
def Obligations.SameCyclePublishAndPoll : Prop :=
  ∀ (e : KeyEvent) (producer r₁ r₂ : Config.Request) (rest : List Config.Slot) (s u : State),
    s.cfg.Legal → s.cfg.evqLag = 0 → s.host = .idle → s.script = .sameCycle r₁ r₂ :: rest →
    ((r₁ = producer ∧ r₂ = .word (.popw 1#1)) ∨ (r₁ = .word (.popw 1#1) ∧ r₂ = producer)) →
    ((producer = .word (.evc e.code) ∧
        u = { s with script := rest, trace := s.trace ++ [.smpPending (smpPending s)] }) ∨
      (∃ x q, producer = .takeSample ∧ s.smpq = x :: q ∧ ((x = 0x4#4 ∧ e = .up) ∨ (x = 0xB#4 ∧ e = .down)) ∧
        u = { s with
          script := rest, trace := s.trace ++ [.smpPending (smpPending s)], smpq := q, lastSample := x }) ∨
      (producer = .word (.dbw 0b11#2) ∧ e = .enter ∧ s.acc = false ∧ s.cnt = 1#4 ∧
        u = { s with
          script := rest, trace := s.trace ++ [.smpPending (smpPending s)], acc := true, cnt := 0#4 })) →
    (evCount s = 32 → step s = .next { u with
      rptr := s.rptr + 1, trace := u.trace ++ [.polled (1#1 ++ slotAt s s.rptr)] }) ∧
    (evCount s = 0 → step s = .next { u with
      wptr := s.wptr + 1, slot := s.slot.set (slotIndex s.wptr) e.code (slotIndex_lt s.wptr),
      trace := u.trace ++ [.polled 0b000#3] }) ∧
    (evCount s ≠ 0 → evCount s < 32 → step s = .next { u with
      wptr := s.wptr + 1, slot := s.slot.set (slotIndex s.wptr) e.code (slotIndex_lt s.wptr),
      rptr := s.rptr + 1, trace := u.trace ++ [.polled (1#1 ++ slotAt s s.rptr)] })

/-- R119: when QDEC and DEB fall in the same instant, listed in either order, the queue takes them one after the other in
the order EVQ_ARB gives; under ANY a model admits both orders (the choice is a free value, log 13). The slot first shows
QDEC the `smp_pending` of the cycle (log 18, log 37) and leaves DIVCNT as it is (log 34). -/
def Obligations.SameCycleProducersArbitrated : Prop :=
  ∀ (x : Sample) (i : Instr) (level : Bool) (rest : List Config.Slot) (s u : State) (r₁ r₂ : Config.Request),
    s.cfg.Legal → s.smpq.head? = some x → decode (.smp x) = .op i →
    s.script = .sameCycle r₁ r₂ :: rest →
    ((r₁ = .takeSample ∧ r₂ = .word (encode (.debTick level))) ∨
      (r₁ = .word (encode (.debTick level)) ∧ r₂ = .takeSample)) →
    u = { s with script := rest, trace := s.trace ++ [.smpPending true] } →
    (s.cfg.evqArb = .qdecFirst → step s = andThen (exec i u) (exec (.debTick level))) ∧
    (s.cfg.evqArb = .debFirst → step s = andThen (exec (.debTick level) u) (exec i)) ∧
    (s.cfg.evqArb = .any →
      step s = andThen (exec i { u with draws := s.draws + 1 }) (exec (.debTick level)) ∨
      step s = andThen (exec (.debTick level) { u with draws := s.draws + 1 }) (exec i))

/-- R18: DIVCNT counts `clk_sys` cycles from 0 to DIV - 1, and the cycle in which it wraps is the one in which PTE_TICK is
performed, once, with the operation of the cycle: `act`, that of a word on a port, of QDEC on the head of SMPQ, or of a turn
of HOST. A byte that HOST presents, by an ENQUEUE or by a turn, comes after the tick if there was room at the start of the
cycle and is not accepted in this cycle if not (R90); any other operation comes on the side of the tick that the slot says
(log 14). A cycle with no operation only counts, and ticks at the wrap; a pulse strobe asked for counts for nothing (log
26). Every cycle shows `smp_pending` (log 18), once, whatever the producer clock is (log 37). -/
def Obligations.ClockCycleCountsDivider : Prop :=
  ∀ (r : Config.Request) (tickFirst : Bool) (rest : List Config.Slot) (s u : State), s.cfg.Legal → s.divcnt < s.cfg.div →
    s.script = .clock r tickFirst :: rest →
    u = { s with script := rest, trace := s.trace ++ [.smpPending (smpPending s)] } →
    ((r = .word (.pulse 1#1) ∨ (∃ w, r = .word w ∧ decode w = .quiet) ∨ (r = .takeSample ∧ s.smpq = [])) →
      (s.divcnt + 1 < s.cfg.div → step s = .next { u with divcnt := s.divcnt + 1 }) ∧
      (s.divcnt + 1 = s.cfg.div → step s = exec .pteTick { u with divcnt := 0 })) ∧
    (∀ act : State → Answer,
      ((∃ w i, r = .word w ∧ decode w = .op i ∧ i ≠ .pteTick ∧ act = exec i) ∨
        (∃ x i, r = .takeSample ∧ s.smpq.head? = some x ∧ decode (.smp x) = .op i ∧ act = exec i) ∨
        (r = .hostTurn ∧ act = hostTurn)) →
      (s.divcnt + 1 < s.cfg.div → step s = act { u with divcnt := s.divcnt + 1 }) ∧
      (s.divcnt + 1 = s.cfg.div →
        (((∃ d, r = .word (encode (.enqueue d))) ∨ (r = .hostTurn ∧ presented s ≠ none)) → step s =
          if s.txq.length = s.cfg.txqDepth then andThen (act { u with divcnt := 0 }) (exec .pteTick)
          else andThen (exec .pteTick { u with divcnt := 0 }) act) ∧
        ((∀ d, r ≠ .word (encode (.enqueue d))) → (r = .hostTurn → presented s = none) → step s =
          if tickFirst then andThen (exec .pteTick { u with divcnt := 0 }) act
          else andThen (act { u with divcnt := 0 }) (exec .pteTick))))

/-- R74: a model refuses a configuration with N0 = N1, or with one of N0, N1, T_HI, T_LO, T_GAP, TXQ_DEPTH, SMPQ_DEPTH,
DIV equal to 0. -/
def Obligations.IllegalParametersRefused : Prop :=
  ∀ s : State, (s.cfg.n0 = s.cfg.n1 ∨ s.cfg.n0 = 0 ∨ s.cfg.n1 = 0 ∨ s.cfg.tHi = 0 ∨ s.cfg.tLo = 0 ∨ s.cfg.tGap = 0 ∨
    s.cfg.txqDepth = 0 ∨ s.cfg.smpqDepth = 0 ∨ s.cfg.div = 0) → step s = .refused .illegalConfiguration

/-! ### ENQUEUE, TX_NOREQ, IS_DRAINING, DRAIN_WAIT (R78 to R80) -/

/-- R78: with room in TXQ, ENQUEUE pushes its byte, once; a HOST that was blocked on it is released. -/
def Obligations.EnqueueAccepted : Prop :=
  ∀ (d : Byte) (s : State), (s.host = .idle ∨ s.host = .enqueue d) → s.txq.length < s.cfg.txqDepth →
    exec (.enqueue d) s =
      .next { s with txq := s.txq ++ [d], host := .idle, trace := s.trace ++ [.accepted d] }

/-- R78: with TXQ full, ENQUEUE is not accepted and HOST holds the byte; at HOST's next turn it is accepted, exactly once,
if there is room by then, and still held if not. -/
def Obligations.EnqueueBlockedHoldsByte : Prop :=
  (∀ (d : Byte) (s : State), (s.host = .idle ∨ s.host = .enqueue d) → s.txq.length = s.cfg.txqDepth →
    exec (.enqueue d) s = .next { s with host := .enqueue d }) ∧
  (∀ (d : Byte) (s : State), s.host = .enqueue d → s.txq.length < s.cfg.txqDepth →
    hostTurn s = .next { s with txq := s.txq ++ [d], host := .idle, trace := s.trace ++ [.accepted d] }) ∧
  (∀ (d : Byte) (s : State), s.host = .enqueue d → s.txq.length = s.cfg.txqDepth → hostTurn s = .next s)

/-- R78, R72: a TXW with `v = 0` and a DBW with `t = 0` change nothing. -/
def Obligations.NoRequestChangesNothing : Prop :=
  ∀ (x : Byte) (b : Bool) (s : State), exec (.txNoreq x) s = .next s ∧ exec (.debNotick b) s = .next s

/-- R79: IS_DRAINING returns `TX_BUSY = (len(TXQ) > 0) or (PH != IDLE)` and has no side effect. HOST performs it between
its procedures and in a DRAIN_WAIT (R80; log 29). -/
def Obligations.IsDrainingAnswersBusy : Prop :=
  ∀ s : State, (s.host = .idle ∨ s.host = .drain ∨ s.host = .sendDrain) →
    ((s.txq ≠ [] ∨ s.ph ≠ .idle) → exec .isDraining s = .next { s with trace := s.trace ++ [.busy true] }) ∧
    (s.txq = [] → s.ph = .idle → exec .isDraining s = .next { s with trace := s.trace ++ [.busy false] })

/-- R80: DRAIN_WAIT completes when `TX_BUSY = 0`, with no change of the block's state; while `TX_BUSY = 1` it blocks HOST,
and nothing else changes (HOST's wait: log 9). That its looks at TX_BUSY leave no item in the trace, and its return one, is
the model's choice (log 35). -/
def Obligations.DrainWaitCompletesOrBlocks : Prop :=
  ∀ s : State, (s.host = .idle ∨ s.host = .drain) →
    (s.txq = [] → s.ph = .idle →
      exec .drainWait s = .next { s with host := .idle, trace := s.trace ++ [.drained] } ∧
      (s.host = .drain → hostTurn s = .next { s with host := .idle, trace := s.trace ++ [.drained] })) ∧
    ((s.txq ≠ [] ∨ s.ph ≠ .idle) →
      exec .drainWait s = .next { s with host := .drain } ∧ (s.host = .drain → hostTurn s = .next s))

/-- X39 (log 10): one HOST. While it transmits, in a SEND or a blocked ENQUEUE, a second transmitter is turned away. -/
def Obligations.SecondTransmitterRefused : Prop :=
  ∀ (d : Byte) (name buf : List Byte) (n : Nat) (s : State), s.host ≠ .idle → s.host ≠ .drain →
    (s.host ≠ .enqueue d → exec (.enqueue d) s = .refused .hostBusy) ∧
    (ImageOk s.cfg buf n → NameOk name → exec (.send name buf n) s = .refused .hostBusy)

/-! ### PTE_TICK (R81 to R86) -/

/-- R83: `start_bit` takes the next bit `b` off the shift register, bit 7 first when MSB_FIRST is true and bit 0 first when
it is false, counts it, and enters the high half of the first of its `N(b)` pulses. -/
def Obligations.StartBitTakesNextBit : Prop :=
  ∀ (sr : Byte) (nb : BitVec 4) (s : State),
    (s.cfg.msbFirst = true → startBit sr nb s = { s with
      sr := sr.extractLsb' 0 7 ++ 0#1, nb := nb - 1, np := (if sr.getLsbD 7 then s.cfg.n1 else s.cfg.n0) - 1,
      ph := .hi, tmr := s.cfg.tHi }) ∧
    (s.cfg.msbFirst = false → startBit sr nb s = { s with
      sr := 0#1 ++ sr.extractLsb' 1 7, nb := nb - 1, np := (if sr.getLsbD 0 then s.cfg.n1 else s.cfg.n0) - 1,
      ph := .hi, tmr := s.cfg.tHi })

/-- R82: PTE_TICK in IDLE loads the head of TXQ, or stays; the line is high exactly when a byte was loaded. -/
def Obligations.TickInIdle : Prop :=
  ∀ s : State, s.ph = .idle →
    (∀ (d : Byte) (rest : List Byte), s.txq = d :: rest →
      exec .pteTick s =
        .next { startBit d 8#4 { s with txq := rest } with trace := s.trace ++ [.out true] }) ∧
    (s.txq = [] → exec .pteTick s = .next { s with trace := s.trace ++ [.out false] })

/-- R84: PTE_TICK in HI counts the high half of a pulse, then the line falls. With TMR at T_HI on entry the line is high
for the tick that enters HI and the T_HI - 1 ticks that count: exactly T_HI. -/
def Obligations.TickInHigh : Prop :=
  ∀ s : State, s.ph = .hi →
    (1 < s.tmr → exec .pteTick s = .next { s with tmr := s.tmr - 1, trace := s.trace ++ [.out true] }) ∧
    (∀ k, k < s.tmr → runOps (List.replicate k .pteTick) s =
      .next { s with tmr := s.tmr - k, trace := s.trace ++ List.replicate k (.out true) }) ∧
    (s.tmr ≤ 1 → exec .pteTick s =
      .next { s with ph := .lo, tmr := s.cfg.tLo, trace := s.trace ++ [.out false] })

/-- R85: PTE_TICK in LO counts the low half, then starts the next pulse of the same bit or the gap. -/
def Obligations.TickInLow : Prop :=
  ∀ s : State, s.ph = .lo →
    (1 < s.tmr → exec .pteTick s = .next { s with tmr := s.tmr - 1, trace := s.trace ++ [.out false] }) ∧
    (s.tmr ≤ 1 → 0 < s.np → exec .pteTick s =
      .next { s with np := s.np - 1, ph := .hi, tmr := s.cfg.tHi, trace := s.trace ++ [.out true] }) ∧
    (s.tmr ≤ 1 → s.np = 0 → exec .pteTick s =
      .next { s with ph := .gap, tmr := s.cfg.tGap, trace := s.trace ++ [.out false] })

/-- R86: PTE_TICK in GAP counts the silence, then starts the next bit, the next byte with no extra tick, or goes idle. The
tick that enters GAP and the T_GAP - 1 ticks that count make exactly T_GAP ticks of silence. -/
def Obligations.TickInGap : Prop :=
  ∀ s : State, s.ph = .gap →
    (1 < s.tmr → exec .pteTick s = .next { s with tmr := s.tmr - 1, trace := s.trace ++ [.out false] }) ∧
    (∀ k, k < s.tmr → runOps (List.replicate k .pteTick) s =
      .next { s with tmr := s.tmr - k, trace := s.trace ++ List.replicate k (.out false) }) ∧
    (s.tmr ≤ 1 → s.nb ≠ 0#4 → exec .pteTick s =
      .next { startBit s.sr s.nb s with trace := s.trace ++ [.out true] }) ∧
    (∀ (d : Byte) (rest : List Byte), s.tmr ≤ 1 → s.nb = 0#4 → s.txq = d :: rest → exec .pteTick s =
      .next { startBit d 8#4 { s with txq := rest } with trace := s.trace ++ [.out true] }) ∧
    (s.tmr ≤ 1 → s.nb = 0#4 → s.txq = [] → exec .pteTick s =
      .next { s with ph := .idle, tmr := 0, trace := s.trace ++ [.out false] })

/-! ### SMP_CAPTURE and QDEC_STEP (R97 to R100) -/

/-- R97, R98: a transition is queued as {current, previous}, or lost when SMPQ is full; PHASE is updated in both cases, and
nothing else of the block changes (`lines` is the model's own field, of which nothing is said). -/
def Obligations.CaptureQueuesTransition : Prop :=
  ∀ (a b : Bool) (s : State), BitVec.ofBool a ++ BitVec.ofBool b ≠ s.phase →
    ∃ t, exec (.smpCapture a b) s = .next t ∧
      (s.smpq.length < s.cfg.smpqDepth → t = { s with
        smpq := s.smpq ++ [BitVec.ofBool a ++ BitVec.ofBool b ++ s.phase],
        phase := BitVec.ofBool a ++ BitVec.ofBool b, lines := t.lines }) ∧
      (s.smpq.length = s.cfg.smpqDepth → t = { s with phase := BitVec.ofBool a ++ BitVec.ofBool b, lines := t.lines })

/-- Log 8: where the lines have not changed, SMP_CAPTURE is not enabled and nothing happens; nor does anything on a
QDEC_STEP whose sample is not the head of SMPQ. Log 29, R58: a HOST that is in a DRAIN_WAIT, a SEND or a blocked ENQUEUE
has no POLL, no peek, no VALIDATE and no other DRAIN_WAIT, and in a DRAIN_WAIT no ENQUEUE and no SEND; it looks at TX_BUSY
only where it waits for it. -/
def Obligations.NotEnabledChangesNothing : Prop :=
  (∀ (a b : Bool) (s : State), BitVec.ofBool a ++ BitVec.ofBool b = s.phase → exec (.smpCapture a b) s = .next s) ∧
  (∀ (x : Sample) (i : Instr) (s : State), decode (.smp x) = .op i → s.smpq.head? ≠ some x → exec i s = .next s) ∧
  (∀ s : State, s.host ≠ .idle →
    exec .poll s = .next s ∧ exec .noPoll s = .next s ∧
    (∀ buf n, ImageOk s.cfg buf n → exec (.validate buf n) s = .next s) ∧
    (s.host = .drain → (∀ d, exec (.enqueue d) s = .next s) ∧
      ∀ name buf n, ImageOk s.cfg buf n → NameOk name → exec (.send name buf n) s = .next s) ∧
    (s.host ≠ .drain → exec .drainWait s = .next s) ∧
    (s.host ≠ .drain → s.host ≠ .sendDrain → exec .isDraining s = .next s))

/-- R99: QDEC_STEP takes the head of SMPQ and records it. On `0x4` it publishes UP and on `0xB` DOWN (when the event queue
is full as the producer sees it the event is dropped and the sample is still consumed); on the other fourteen it publishes
nothing. -/
def Obligations.QdecStepTakesSample : Prop :=
  (∀ r ∈ [(0x0#4, Instr.qdecNone0), (0x1#4, .qdecNone1), (0x2#4, .qdecNone2), (0x3#4, .qdecNone3), (0x5#4, .qdecNone5),
      (0x6#4, .qdecNone6), (0x7#4, .qdecNone7), (0x8#4, .qdecNone8), (0x9#4, .qdecNone9), (0xA#4, .qdecNoneA),
      (0xC#4, .qdecNoneC), (0xD#4, .qdecNoneD), (0xE#4, .qdecNoneE), (0xF#4, .qdecNoneF)],
    ∀ (q : List Sample) (s : State), s.smpq = r.1 :: q →
      exec r.2 s = .next { s with smpq := q, lastSample := r.1 }) ∧
  (∀ (x : Sample) (i : Instr) (code : EventCode) (q : List Sample) (s : State),
    ((x = 0x4#4 ∧ i = .qdecIncrease ∧ code = 0b01#2) ∨ (x = 0xB#4 ∧ i = .qdecDecrease ∧ code = 0b10#2)) →
    s.smpq = x :: q →
    (cursorDistance (rptrSeen s) s.wptr ≠ s.cfg.source.evqCap → exec i s = .next { s with
      smpq := q, lastSample := x, wptr := s.wptr + 1,
      slot := s.slot.set (slotIndex s.wptr) code (slotIndex_lt s.wptr) }) ∧
    (cursorDistance (rptrSeen s) s.wptr = s.cfg.source.evqCap → exec i s = .next { s with smpq := q, lastSample := x }))

/-! ### DEB_TICK (R105, R106) -/

/-- R106: the four rows of the table of `(ACC, CNT)`, with what each publishes. The window is DEB_TICKS = 10 (R105, log
28). -/
def Obligations.DebounceTransitions : Prop :=
  ∀ (level : Bool) (s : State), s.cfg.source = Config.document →
    (level = s.acc → exec (.debTick level) s = .next { s with cnt := 0#4 }) ∧
    (level ≠ s.acc → s.cnt = 0#4 → exec (.debTick level) s = .next { s with cnt := 10#4 }) ∧
    (level ≠ s.acc → s.cnt ≠ 0#4 → s.cnt ≠ 1#4 → exec (.debTick level) s = .next { s with cnt := s.cnt - 1 }) ∧
    (level = false → s.acc = true → s.cnt = 1#4 →
      exec (.debTick level) s = .next { s with cnt := 0#4, acc := false }) ∧
    (level = true → s.acc = false → s.cnt = 1#4 → cursorDistance (rptrSeen s) s.wptr ≠ s.cfg.source.evqCap →
      exec (.debTick level) s = .next { s with
        cnt := 0#4, acc := true, wptr := s.wptr + 1,
        slot := s.slot.set (slotIndex s.wptr) 0b11#2 (slotIndex_lt s.wptr) }) ∧
    (level = true → s.acc = false → s.cnt = 1#4 → cursorDistance (rptrSeen s) s.wptr = s.cfg.source.evqCap →
      exec (.debTick level) s = .next { s with cnt := 0#4, acc := true })

/-! ### PUBLISH, POLL, NOPOLL, SYNC (R114, R115, R123) -/

/-- R114: PUBLISH writes the code in the slot at WPTR[4:0] and advances WPTR modulo 64, in one step; with the queue full as
the producer sees it the new event is dropped and nothing changes. -/
def Obligations.PublishStoresOrDrops : Prop :=
  ∀ (i : Instr) (code : EventCode) (s : State),
    ((i = .publishUp ∧ code = 0b01#2) ∨ (i = .publishDown ∧ code = 0b10#2) ∨ (i = .publishEnter ∧ code = 0b11#2)) →
    (cursorDistance (rptrSeen s) s.wptr ≠ s.cfg.source.evqCap → exec i s = .next { s with
      slot := s.slot.set (slotIndex s.wptr) code (slotIndex_lt s.wptr), wptr := s.wptr + 1 }) ∧
    (cursorDistance (rptrSeen s) s.wptr = s.cfg.source.evqCap → exec i s = .next s)

/-- R115: POLL of a queue that is empty as the consumer sees it answers NONE and changes nothing; otherwise it answers the
event at RPTR[4:0] and advances RPTR. Without `ev_pop` the same answer is shown and nothing changes. HOST performs both
between its procedures (log 29). -/
def Obligations.PollAnswersOldest : Prop :=
  ∀ s : State, s.host = .idle →
    (wptrSeen s = s.rptr →
      exec .poll s = .next { s with trace := s.trace ++ [.polled 0b000#3] } ∧
      exec .noPoll s = .next { s with trace := s.trace ++ [.peeked 0b000#3] }) ∧
    (wptrSeen s ≠ s.rptr →
      exec .poll s = .next { s with
        rptr := s.rptr + 1, trace := s.trace ++ [.polled (1#1 ++ slotAt s s.rptr)] } ∧
      exec .noPoll s = .next { s with trace := s.trace ++ [.peeked (1#1 ++ slotAt s s.rptr)] })

/-- R123: with EVQ_LAG > 0 a SYNC step moves its copy to some value from the old copy up to the cursor, and changes nothing
else of the block (it counts a free value, log 12, and notes the cursor, log 33). R173: EVQ_LAG of them, with the cursor
standing still, bring the copy up to it. With EVQ_LAG = 0 a SYNC step changes nothing (R31). -/
def Obligations.SyncMovesCopyForward : Prop :=
  ∀ s : State,
    (0 < s.cfg.evqLag → ∃ (v : Cursor) (past : List Cursor), cursorDistance s.rptrP v ≤ cursorDistance s.rptrP s.rptr ∧
      exec .syncR s = .next { s with rptrP := v, rptrPast := past, draws := s.draws + 1 }) ∧
    (0 < s.cfg.evqLag → ∃ (v : Cursor) (past : List Cursor), cursorDistance s.wptrC v ≤ cursorDistance s.wptrC s.wptr ∧
      exec .syncW s = .next { s with wptrC := v, wptrPast := past, draws := s.draws + 1 }) ∧
    (0 < s.cfg.evqLag → ∃ past, runOps (List.replicate s.cfg.evqLag .syncR) s =
      .next { s with rptrP := s.rptr, rptrPast := past, draws := s.draws + s.cfg.evqLag }) ∧
    (0 < s.cfg.evqLag → ∃ past, runOps (List.replicate s.cfg.evqLag .syncW) s =
      .next { s with wptrC := s.wptr, wptrPast := past, draws := s.draws + s.cfg.evqLag }) ∧
    (s.cfg.evqLag = 0 → exec .syncR s = .next s ∧ exec .syncW s = .next s)

/-! ### VALIDATE and SEND (R126 to R135) -/

/-- R126, R127: VALIDATE answers the result of the checks in their order, the first failing one being reported, and changes
no state. `L` is the effective length over the integers. The literals are the document's values (log 28), HOST is in no
other procedure (log 29), and the checks are one step (log 36). -/
def Obligations.ValidateChecksInOrder : Prop :=
  ∀ (buf : List Byte) (n : Nat) (s : State) (b : Nat → Nat) (L : Int),
    s.cfg.source = Config.document → s.host = .idle → n ≤ 16384 → n ≤ buf.length →
    (∀ k, k < buf.length → (buf[k]?).map BitVec.toNat = some (b k)) →
    L = (b 11 : Int) + 256 * (b 12 : Int) - 0x4009 →
    exec (.validate buf n) s = .next { s with trace := s.trace ++ [.validated
      (if n ≤ 120 then .raised (.invalidImage .tooShort)
       else if b 0 ≠ 0 then .raised (.invalidImage .badMarker)
       else if L ≤ 0 ∨ (n : Int) < L then .raised (.invalidImage .lengthMismatch)
       else if b (L.toNat - 1) ≠ 0x80 then .raised (.invalidImage .missingTerminator)
       else .ok L.toNat)] }

/-- X26, X28 (log 21): VALIDATE and SEND outside the precondition on the image, and SEND of a name with no end marker, are
refused. -/
def Obligations.HostPreconditionsRefused : Prop :=
  ∀ (name buf : List Byte) (n : Nat) (s : State), s.cfg.source = Config.document →
    (16384 < n ∨ buf.length < n →
      exec (.validate buf n) s = .refused .imagePrecondition ∧
      exec (.send name buf n) s = .refused .imagePrecondition) ∧
    (n ≤ 16384 → n ≤ buf.length → (∀ b ∈ name, b.getLsbD 7 = false) →
      exec (.send name buf n) s = .refused .nameWithoutEndMarker)

/-- R130, R131, R135: SEND of an image VALIDATE accepts enters the T_SETTLE wait with the first `L` bytes as its payload;
of one VALIDATE rejects it returns failure with the same condition. In both cases the block is untouched. That the VALIDATE
of SEND is part of the step that starts it and leaves no item of its own in the trace is the model's choice (log 36, log
35). -/
def Obligations.SendStartsOrFails : Prop :=
  ∀ (name buf : List Byte) (n : Nat) (s : State), s.host = .idle → ImageOk s.cfg buf n →
    (∃ b ∈ name, b.getLsbD 7 = true) →
    (∀ L, validateImage s.cfg buf n = .ok L →
      exec (.validate buf n) s = .next { s with trace := s.trace ++ [.validated (.ok L)] } ∧
      exec (.send name buf n) s = .next { s with host := .settle s.cfg.tSettle name (buf.take L) }) ∧
    (∀ c, validateImage s.cfg buf n = .error c →
      exec (.validate buf n) s = .next { s with trace := s.trace ++ [.validated (.raised (.invalidImage c))] } ∧
      exec (.send name buf n) s = .next { s with trace := s.trace ++ [.sent (.raised (.invalidImage c))] })

/-! ### RESET (R39, R152, R153) -/

/-- R39, R152: RESET gives every element of the block its reset value, PHASE the level of the lines; SLOT is unspecified
(some value `v`), HOST is in no procedure (R150), and the parameters and the inputs stay (log 6, log 7, log 11). -/
def Obligations.ResetSetsEveryElement : Prop :=
  ∀ s : State, ∃ v : Vector EventCode Config.document.evqSlots, exec .reset s = .next {
    txq := [], sr := 0x00#8, nb := 0#4, ph := .idle, np := 0, tmr := 0, divcnt := 0, phase := s.lines, smpq := [],
    lastSample := 0b0000#4, acc := false, cnt := 0#4, slot := v, wptr := 0, rptr := 0, rptrP := 0, wptrC := 0,
    rptrPast := [], wptrPast := [], cfg := s.cfg, host := .idle, lines := s.lines, script := s.script,
    trace := s.trace,
    draws := s.draws + 1 }

/-- R39, R153: what the reset state holds where the spec gives the value, and the ports it then shows. -/
def Obligations.ResetStateAsTabled : Prop :=
  State.reset.txq = [] ∧ State.reset.sr = 0x00#8 ∧ State.reset.nb = 0#4 ∧ State.reset.ph = .idle ∧ State.reset.np = 0 ∧
  State.reset.tmr = 0 ∧ State.reset.divcnt = 0 ∧ State.reset.phase = State.reset.lines ∧ State.reset.smpq = [] ∧
  State.reset.lastSample = 0b0000#4 ∧ State.reset.acc = false ∧ State.reset.cnt = 0#4 ∧ State.reset.wptr = 0 ∧
  State.reset.rptr = 0 ∧ State.reset.rptrP = 0 ∧ State.reset.wptrC = 0 ∧ out State.reset = false ∧
  txReady State.reset = true ∧ txBusy State.reset = false ∧ smpPending State.reset = false ∧
  evValid State.reset = false ∧ evCode State.reset = 0b00#2

/-! ### Invariants of every step (R38, R34) -/

/-- R38: every step, whatever slot it takes, keeps the invariant of the machine. -/
def Obligations.StepKeepsInvariant : Prop :=
  ∀ s t : State, Inv s → step s = .next t → Inv t

/-- The reset state has the invariant. -/
def Obligations.ResetHasInvariant : Prop := Inv State.reset

/-- R138: an operation of an agent other than HOST gives a next state in every state; and under the invariant so does a
turn of HOST. An SMP_CAPTURE with unchanged lines and a QDEC_STEP on a sample that is not the head of SMPQ are not enabled
and have no step (R9, R97, R99); that the model gives them one, which changes nothing, is its own choice (log 8), and so is
the turn of HOST (log 9). -/
def Obligations.HardwareNeverStops : Prop :=
  (∀ (i : Instr) (s : State), agentOf i ≠ .host → ∃ t, exec i s = .next t) ∧
  (∀ s : State, Inv s → ∃ t, hostTurn s = .next t)

/-- R34: no step changes the parameters. -/
def Obligations.ParametersNeverChange : Prop :=
  ∀ s t : State, step s = .next t → t.cfg = s.cfg

/-- R15, R16, R18: under the invariant NP fits CNT_W bits, TMR fits TMR_W bits and DIVCNT its width (log 19). -/
def Obligations.CountersFitTheirWidths : Prop :=
  ∀ s : State, Inv s → s.np < 2 ^ s.cfg.cntW ∧ s.tmr < 2 ^ s.cfg.tmrW ∧ s.divcnt < 2 ^ s.cfg.divW ∧
    s.cfg.div ≤ 2 ^ s.cfg.divW ∧ (∀ w, s.cfg.div ≤ 2 ^ w → s.cfg.divW ≤ w)

/-! ### Who writes what (R11 to R31, R119) -/

/-- R12 to R16: SR, NB, PH, NP and TMR are written by PTE_TICK (and RESET) only; R18: DIVCNT by no operation but RESET
(a `clock` slot counts it, log 25). -/
def Obligations.EngineWrittenOnlyByTick : Prop :=
  ∀ (i : Instr) (s t : State), exec i s = .next t → i ≠ .reset →
    t.divcnt = s.divcnt ∧
    (i ≠ .pteTick → t.sr = s.sr ∧ t.nb = s.nb ∧ t.ph = s.ph ∧ t.np = s.np ∧ t.tmr = s.tmr)

/-- R11, R41: TXQ is written by ENQUEUE, which pushes at the tail, and by PTE_TICK, which pops at the head, and by no other
operation but RESET. -/
def Obligations.ByteQueueWrittenOnlyAtEnds : Prop :=
  ∀ (i : Instr) (s t : State), exec i s = .next t → i ≠ .reset →
    t.txq = s.txq ∨ (∃ d, i = .enqueue d ∧ t.txq = s.txq ++ [d]) ∨ (i = .pteTick ∧ ∃ d, s.txq = d :: t.txq)

/-- R21, R22, R24, R25, R26: PHASE is written by SMP_CAPTURE only; SMPQ by SMP_CAPTURE at its tail and by QDEC_STEP at its
head; LAST_SAMPLE by QDEC_STEP, which stores the sample it took; ACC and CNT by DEB_TICK only (RESET apart). -/
def Obligations.InputStateWrittenByItsAgents : Prop :=
  ∀ (i : Instr) (s t : State), exec i s = .next t → i ≠ .reset →
    ((∃ a b, i = .smpCapture a b) ∨ t.phase = s.phase) ∧
    ((t.smpq = s.smpq ∧ t.lastSample = s.lastSample) ∨
      (∃ a b, i = .smpCapture a b ∧ t.smpq = s.smpq ++ [t.phase ++ s.phase] ∧ t.lastSample = s.lastSample) ∨
      (∃ x, decode (.smp x) = .op i ∧ s.smpq = x :: t.smpq ∧ t.lastSample = x)) ∧
    ((∃ level, i = .debTick level) ∨ (t.acc = s.acc ∧ t.cnt = s.cnt))

/-- R119, R31: WPTR and SLOT are written by the operations that publish, RPTR by POLL only, RPTR_P by SYNC_R only, WPTR_C
by SYNC_W only (RESET apart). -/
def Obligations.CursorsSingleWriter : Prop :=
  ∀ (i : Instr) (s t : State), exec i s = .next t → i ≠ .reset →
    (agentOf i ≠ .qdec → agentOf i ≠ .deb → t.wptr = s.wptr ∧ t.slot = s.slot) ∧
    (i ≠ .poll → t.rptr = s.rptr) ∧ (i ≠ .syncR → t.rptrP = s.rptrP) ∧ (i ≠ .syncW → t.wptrC = s.wptrC)

/-! ### The waveform (R71, R87, R88, R57) -/

/-- R71: `len(W(d)) = ones(d) * N1 * (T_HI+T_LO) + (8 - ones(d)) * N0 * (T_HI+T_LO) + 8 * T_GAP`. -/
def Obligations.WaveLength : Prop :=
  ∀ (p : Config.Params) (d : Byte), (wave p d).length =
    ones d * p.n1 * (p.tHi + p.tLo) + (8 - ones d) * p.n0 * (p.tHi + p.tLo) + 8 * p.tGap

/-- Each PTE_TICK shows the next level of the line's future and takes it off; with no future the line is low and the engine
idle (R87, R89). -/
def Obligations.TickShowsLineFuture : Prop :=
  ∀ s : State, Inv s → ∃ t level, exec .pteTick s = .next t ∧ t.trace = s.trace ++ [.out level] ∧
    ((lineFuture s = level :: lineFuture t) ∨
      (lineFuture s = [] ∧ lineFuture t = [] ∧ level = false ∧ TransmitQuiescent t))

/-- R87: from an idle engine with bytes in TXQ, the levels shown by the next PTE_TICKs are the byte frames of those bytes,
in order, with nothing between them. -/
def Obligations.LineIsConcatenatedWaves : Prop :=
  ∀ s : State, s.cfg.Legal → s.ph = .idle → s.txq ≠ [] →
    ∃ t, runOps (List.replicate (waves s.cfg s.txq).length .pteTick) s = .next t ∧
      t.trace = s.trace ++ (waves s.cfg s.txq).map Observation.out

/-- R88: in that setting after tick `L` the state is `PH = GAP`, `TMR = 1`, `NB = 0`, `TXQ = []`, `TX_BUSY = 1`, and tick
`L + 1` gives `PH = IDLE`, `TX_BUSY = 0`. -/
def Obligations.BusyFallsOneTickAfterLastGap : Prop :=
  ∀ s : State, s.cfg.Legal → s.ph = .idle → s.txq ≠ [] →
    ∃ t u, runOps (List.replicate (waves s.cfg s.txq).length .pteTick) s = .next t ∧
      t.ph = .gap ∧ t.tmr = 1 ∧ t.nb = 0#4 ∧ t.txq = [] ∧ txBusy t = true ∧
      exec .pteTick t = .next u ∧ u.ph = .idle ∧ txBusy u = false

/-- R88: from any state with `TX_BUSY = 1` and no further ENQUEUE, `TX_BUSY` falls after at most
`(len(TXQ) + 1) * LMAX + 1` PTE_TICK operations. -/
def Obligations.DrainEndsWithinBound : Prop :=
  ∀ s : State, Inv s → txBusy s = true →
    ∃ k t, k ≤ (s.txq.length + 1) * longestFrame s.cfg + 1 ∧
      runOps (List.replicate k .pteTick) s = .next t ∧ txBusy t = false

/-- R93, R101, R173: in a run that is weakly fair (R8), from a point `n` after which there is no RESET, TXQ has room at some
later point, so that a blocked ENQUEUE is released at HOST's next turn; if no more bytes are accepted `TX_BUSY` falls at
some later point, which releases DRAIN_WAIT; and the samples in SMPQ at `n` are taken in order: in some later slot SMPQ,
which until then still begins with them, loses its first `k` samples, as many as that slot has QDEC_STEPs for and at least
the head `x`, and LAST_SAMPLE holds the last of those, which is `x` itself where the slot asks for one QDEC_STEP. -/
def Obligations.FairRunsReleaseWaits : Prop :=
  ∀ (slots : Nat → Config.Slot) (run : Nat → State) (n : Nat), IsRun slots run → Inv (run 0) → WeaklyFair slots run →
    NoResetFrom slots n →
    (∃ m, n ≤ m ∧ txFull (run m) = false) ∧
    ((∀ m, n ≤ m → acceptedBytes (run (m + 1)).trace = acceptedBytes (run m).trace) →
      ∃ m, n ≤ m ∧ txBusy (run m) = false) ∧
    (∀ x q, (run n).smpq = x :: q → ∃ m k new, n ≤ m ∧ (x :: q) <+: (run m).smpq ∧
      1 ≤ k ∧ k ≤ qdecRequests (slots m) ∧ (run (m + 1)).smpq = (run m).smpq.drop k ++ new ∧
      (run m).smpq[k - 1]? = some (run (m + 1)).lastSample)

/-- R57, R91: apart from PTE_TICK, which shows the next level, and RESET, no operation changes what the line is going to
show, except that an accepted byte adds its frame at the end. -/
def Obligations.AcceptedBytesStayOnTheLine : Prop :=
  ∀ (i : Instr) (s t : State), exec i s = .next t → i ≠ .reset → i ≠ .pteTick →
    lineFuture t = lineFuture s ∨ ∃ d, i = .enqueue d ∧ lineFuture t = lineFuture s ++ wave s.cfg d

/-! ### The event queue as a queue (R116, R117, R123) -/

/-- R117, R114: an accepted PUBLISH adds its event behind the unread ones and overwrites none of them, with exact or lagging
cursors; with exact cursors the event is accepted unless 32 are unread. -/
def Obligations.PublishAppendsUnread : Prop :=
  ∀ (e : KeyEvent) (s t : State), Inv s → exec (publishInstr e) s = .next t →
    (unread t = unread s ++ [e.code] ∨ (unread t = unread s ∧ t = s)) ∧
    (s.cfg.evqLag = 0 → ((unread s).length < 32 ↔ unread t = unread s ++ [e.code]))

/-- R117: POLL returns the oldest unread event and removes it, or answers NONE and removes nothing; with exact cursors it
answers NONE only when nothing is unread. HOST polls between its procedures (log 29). -/
def Obligations.PollTakesOldestUnread : Prop :=
  ∀ s : State, Inv s → s.host = .idle → ∃ t, exec .poll s = .next t ∧
    ((∃ c, unread s = c :: unread t ∧ t.trace = s.trace ++ [.polled (1#1 ++ c)]) ∨
      (unread t = unread s ∧ t.trace = s.trace ++ [.polled 0b000#3] ∧ (s.cfg.evqLag = 0 → unread s = [])))

/-- R54, R57: an unread event stays unread, and in its place, until a POLL returns it or RESET: every other operation only
adds events behind the unread ones. -/
def Obligations.UnreadEventsKept : Prop :=
  ∀ (i : Instr) (s t : State), Inv s → exec i s = .next t → i ≠ .reset → i ≠ .poll →
    unread t = unread s ∨ ∃ e : KeyEvent, unread t = unread s ++ [e.code]

/-- R173: a transmit-quiescent state stays so under PTE_TICK, with the line low; an input-quiescent one stays as it is, its
inputs constant: QDEC_STEP is not enabled, DEB_TICK takes its no-change arm, a SYNC step moves no copy (it only counts a
free value, log 12, and notes the cursor, log 33). With the inputs constant the second is reached after `len(SMPQ)`
QDEC_STEPs, DEB_TICKS + 1 DEB_TICKs, and EVQ_LAG SYNC steps of each copy. -/
def Obligations.QuiescentReachedAndStable : Prop :=
  ∀ (level : Bool) (s : State),
    (TransmitQuiescent s → exec .pteTick s = .next { s with trace := s.trace ++ [.out false] }) ∧
    (InputQuiescent level s →
      exec (.debTick level) s = .next s ∧ (∀ x i, decode (.smp x) = .op i → exec i s = .next s) ∧
      (∃ n past, exec .syncR s = .next { s with draws := n, rptrPast := past }) ∧
      (∃ n past, exec .syncW s = .next { s with draws := n, wptrPast := past })) ∧
    (Inv s → ∃ t,
      runOps (s.smpq.map decodeSmp ++ List.replicate (s.cfg.source.debTicks.toNat + 1) (.debTick level) ++
        List.replicate s.cfg.evqLag .syncR ++ List.replicate s.cfg.evqLag .syncW) s = .next t ∧ InputQuiescent level t)

/-! ### The debouncer over many ticks (R107, R108, R109) -/

/-- R107, R109: eleven consecutive disagreeing ticks. After `k` of them, 1 <= k <= 10, CNT is 11 - k and nothing else has
changed; a change gone at the eleventh tick is not accepted; the eleventh disagreeing tick accepts. An accepted release
leaves the unread events as they are; an accepted press adds one ENTER to them where the cursors are exact and the queue
has room. -/
def Obligations.EleventhTickAccepts : Prop :=
  ∀ s : State, Inv s → s.cnt = 0#4 →
    (∀ k, 1 ≤ k → k ≤ 10 →
      runOps (List.replicate k (.debTick (!s.acc))) s = .next { s with cnt := BitVec.ofNat 4 (11 - k) }) ∧
    runOps (List.replicate 10 (.debTick (!s.acc)) ++ [.debTick s.acc]) s = .next s ∧
    (∃ t, runOps (List.replicate 11 (.debTick (!s.acc))) s = .next t ∧ t.acc = !s.acc ∧ t.cnt = 0#4 ∧
      (s.acc = true → unread t = unread s) ∧
      (s.acc = false → s.cfg.evqLag = 0 → (unread s).length < 32 → unread t = unread s ++ [0b11#2]))

/-- R108: from a closed window, over any sequence of ticks, ACC changes only if the level disagreed with it at eleven ticks
in a row. -/
def Obligations.AcceptNeedsElevenInARow : Prop :=
  ∀ (levels : List Bool) (s t : State), s.cfg.source = Config.document → s.cnt = 0#4 →
    runOps (levels.map .debTick) s = .next t → t.acc ≠ s.acc →
    ∃ before after, levels = before ++ List.replicate 11 (!s.acc) ++ after

/-! ### The host contract over a whole send (R128, R129, R130, R133, R134) -/

/-- R129 (g): changing only the terminator byte of an accepted image flips acceptance to rejection, as MISSING_TERMINATOR. -/
def Obligations.TerminatorFlipRejects : Prop :=
  ∀ (p : Config.Params) (buf : List Byte) (n L : Nat) (x : Byte), p.source = Config.document → ImageOk p buf n →
    validateImage p buf n = .ok L → x ≠ 0x80#8 → validateImage p (buf.set (L - 1) x) n = .error .missingTerminator

/-- R128, R129 (a), (d), (f): `n` of an accepted image is over 120, its accepted length is at least 2 and at most `n`, and
the bytes from offset `L` on, those of the pointer at 11 and 12 apart, do not influence the result: an image that agrees
below `L` and at 11 and 12 is accepted with the same length. -/
def Obligations.AcceptedLengthBounds : Prop :=
  ∀ (p : Config.Params) (buf buf' : List Byte) (n L : Nat), p.source = Config.document → ImageOk p buf n →
    ImageOk p buf' n → validateImage p buf n = .ok L →
    2 ≤ L ∧ L ≤ n ∧ 120 < n ∧
    ((∀ k, k < L ∨ k = 11 ∨ k = 12 → buf'[k]? = buf[k]?) → validateImage p buf' n = .ok L)

/-- A turn of HOST in a SEND or a blocked ENQUEUE presents the next byte it has to send, whole and in order, or waits. It
changes nothing of the block but the tail of TXQ. -/
def Obligations.TurnPresentsNextByte : Prop :=
  ∀ s t : State, hostTurn s = .next t →
    ((t.txq = s.txq ∧ bytesToSend t.host = bytesToSend s.host) ∨
      (∃ d, bytesToSend s.host = d :: bytesToSend t.host ∧ t.txq = s.txq ++ [d] ∧
        acceptedBytes t.trace = acceptedBytes s.trace ++ [d])) ∧
    t = { s with txq := t.txq, host := t.host, trace := t.trace }

/-- R130, R132, R133, R134: a SEND of an accepted image. The name up to and including its end marker is enqueued first, then
exactly the first `L` bytes of the image in order, with a report after every 128th payload byte.
(1) With nothing in between and room in TXQ for all of it, this takes one turn of HOST for each byte after the settling
ones; SEND then stands at its drain. (2) With any operations of the other agents in between, TXQ full or not, RESET apart,
the bytes accepted so far and those still to be sent make up that sequence at every moment; and when SEND is over, it has
returned success after all reports and 100, and the block is transmit-quiescent (R173). (3) With one pulse tick after each
turn of HOST, SEND is over after some number of turns, however small TXQ is. (4) The drain waits for `TX_BUSY = 0`. Its looks leave no item
in the trace, its return one (the model's choice, log 35). -/
def Obligations.SendTransmitsNameThenImage : Prop :=
  ∀ (name buf : List Byte) (n L : Nat) (s : State), s.cfg.Legal → s.host = .idle → ImageOk s.cfg buf n → NameOk name →
    validateImage s.cfg buf n = .ok L →
    ∃ t, exec (.send name buf n) s = .next t ∧
      (s.txq.length + (sentName name).length + L ≤ s.cfg.txqDepth →
        ∃ u, runTurns (s.cfg.tSettle + (sentName name).length + L) t = .next u ∧
          u.txq = s.txq ++ sentName name ++ buf.take L ∧ u.host = .sendDrain ∧
          acceptedBytes u.trace = acceptedBytes s.trace ++ sentName name ++ buf.take L ∧
          progressReports u.trace = progressReports s.trace ++
            (List.range (L / 128)).map (fun j => 100 * (128 * (j + 1)) / L)) ∧
      (∀ (moves : List Move) (u : State), (∀ i, .op i ∈ moves → agentOf i ≠ .host ∧ i ≠ .reset) →
        runMoves moves t = .next u →
          acceptedBytes u.trace ++ bytesToSend u.host = acceptedBytes s.trace ++ sentName name ++ buf.take L ∧
          (u.host = .idle → txBusy u = false ∧ .sent (.ok ()) ∈ u.trace ∧
            progressReports u.trace = progressReports s.trace ++
              (List.range (L / 128)).map (fun j => 100 * (128 * (j + 1)) / L) ++ [100])) ∧
      (Inv s → ∃ k u, runMoves (List.replicate k [.turn, .op .pteTick]).flatten t = .next u ∧ u.host = .idle) ∧
      (∀ v : State, v.host = .sendDrain → txBusy v = true → hostTurn v = .next v) ∧
      (∀ v : State, v.host = .sendDrain → txBusy v = false → hostTurn v = .next { v with
        host := .idle, trace := v.trace ++ [.drained, .progress 100, .sent (.ok ())] })
end

