-- ==== Sys2Proof/Laws/State.lean ====
section
/-! SUPPORT. One lemma per field for each named update of the state, so that no later proof unfolds a record update. -/

namespace Sys2Proof.Machine

/-! `observe` (R172): only the trace. -/

@[simp] theorem observe_txq (o : Observation) (s : State) : (observe o s).txq = s.txq := rfl
@[simp] theorem observe_sr (o : Observation) (s : State) : (observe o s).sr = s.sr := rfl
@[simp] theorem observe_nb (o : Observation) (s : State) : (observe o s).nb = s.nb := rfl
@[simp] theorem observe_ph (o : Observation) (s : State) : (observe o s).ph = s.ph := rfl
@[simp] theorem observe_np (o : Observation) (s : State) : (observe o s).np = s.np := rfl
@[simp] theorem observe_tmr (o : Observation) (s : State) : (observe o s).tmr = s.tmr := rfl
@[simp] theorem observe_divcnt (o : Observation) (s : State) : (observe o s).divcnt = s.divcnt := rfl
@[simp] theorem observe_phase (o : Observation) (s : State) : (observe o s).phase = s.phase := rfl
@[simp] theorem observe_smpq (o : Observation) (s : State) : (observe o s).smpq = s.smpq := rfl
@[simp] theorem observe_lastSample (o : Observation) (s : State) : (observe o s).lastSample = s.lastSample := rfl
@[simp] theorem observe_acc (o : Observation) (s : State) : (observe o s).acc = s.acc := rfl
@[simp] theorem observe_cnt (o : Observation) (s : State) : (observe o s).cnt = s.cnt := rfl
@[simp] theorem observe_slot (o : Observation) (s : State) : (observe o s).slot = s.slot := rfl
@[simp] theorem observe_wptr (o : Observation) (s : State) : (observe o s).wptr = s.wptr := rfl
@[simp] theorem observe_rptr (o : Observation) (s : State) : (observe o s).rptr = s.rptr := rfl
@[simp] theorem observe_rptrP (o : Observation) (s : State) : (observe o s).rptrP = s.rptrP := rfl
@[simp] theorem observe_wptrC (o : Observation) (s : State) : (observe o s).wptrC = s.wptrC := rfl
@[simp] theorem observe_rptrPast (o : Observation) (s : State) : (observe o s).rptrPast = s.rptrPast := rfl
@[simp] theorem observe_wptrPast (o : Observation) (s : State) : (observe o s).wptrPast = s.wptrPast := rfl
@[simp] theorem observe_cfg (o : Observation) (s : State) : (observe o s).cfg = s.cfg := rfl
@[simp] theorem observe_host (o : Observation) (s : State) : (observe o s).host = s.host := rfl
@[simp] theorem observe_lines (o : Observation) (s : State) : (observe o s).lines = s.lines := rfl
@[simp] theorem observe_script (o : Observation) (s : State) : (observe o s).script = s.script := rfl
@[simp] theorem observe_trace (o : Observation) (s : State) :
    (observe o s).trace = s.trace ++ [o] := rfl
@[simp] theorem observe_draws (o : Observation) (s : State) : (observe o s).draws = s.draws := rfl

/-! `acceptByte` (R78): TXQ and the trace. -/

@[simp] theorem acceptByte_txq (d : Byte) (s : State) :
    (acceptByte d s).txq = s.txq ++ [d] := rfl
@[simp] theorem acceptByte_sr (d : Byte) (s : State) : (acceptByte d s).sr = s.sr := rfl
@[simp] theorem acceptByte_nb (d : Byte) (s : State) : (acceptByte d s).nb = s.nb := rfl
@[simp] theorem acceptByte_ph (d : Byte) (s : State) : (acceptByte d s).ph = s.ph := rfl
@[simp] theorem acceptByte_np (d : Byte) (s : State) : (acceptByte d s).np = s.np := rfl
@[simp] theorem acceptByte_tmr (d : Byte) (s : State) : (acceptByte d s).tmr = s.tmr := rfl
@[simp] theorem acceptByte_divcnt (d : Byte) (s : State) : (acceptByte d s).divcnt = s.divcnt := rfl
@[simp] theorem acceptByte_phase (d : Byte) (s : State) : (acceptByte d s).phase = s.phase := rfl
@[simp] theorem acceptByte_smpq (d : Byte) (s : State) : (acceptByte d s).smpq = s.smpq := rfl
@[simp] theorem acceptByte_lastSample (d : Byte) (s : State) : (acceptByte d s).lastSample = s.lastSample := rfl
@[simp] theorem acceptByte_acc (d : Byte) (s : State) : (acceptByte d s).acc = s.acc := rfl
@[simp] theorem acceptByte_cnt (d : Byte) (s : State) : (acceptByte d s).cnt = s.cnt := rfl
@[simp] theorem acceptByte_slot (d : Byte) (s : State) : (acceptByte d s).slot = s.slot := rfl
@[simp] theorem acceptByte_wptr (d : Byte) (s : State) : (acceptByte d s).wptr = s.wptr := rfl
@[simp] theorem acceptByte_rptr (d : Byte) (s : State) : (acceptByte d s).rptr = s.rptr := rfl
@[simp] theorem acceptByte_rptrP (d : Byte) (s : State) : (acceptByte d s).rptrP = s.rptrP := rfl
@[simp] theorem acceptByte_wptrC (d : Byte) (s : State) : (acceptByte d s).wptrC = s.wptrC := rfl
@[simp] theorem acceptByte_rptrPast (d : Byte) (s : State) : (acceptByte d s).rptrPast = s.rptrPast := rfl
@[simp] theorem acceptByte_wptrPast (d : Byte) (s : State) : (acceptByte d s).wptrPast = s.wptrPast := rfl
@[simp] theorem acceptByte_cfg (d : Byte) (s : State) : (acceptByte d s).cfg = s.cfg := rfl
@[simp] theorem acceptByte_host (d : Byte) (s : State) : (acceptByte d s).host = s.host := rfl
@[simp] theorem acceptByte_lines (d : Byte) (s : State) : (acceptByte d s).lines = s.lines := rfl
@[simp] theorem acceptByte_script (d : Byte) (s : State) : (acceptByte d s).script = s.script := rfl
@[simp] theorem acceptByte_trace (d : Byte) (s : State) :
    (acceptByte d s).trace = s.trace ++ [.accepted d] := rfl
@[simp] theorem acceptByte_draws (d : Byte) (s : State) : (acceptByte d s).draws = s.draws := rfl

/-! `startBit` (R83): the engine's registers. -/

@[simp] theorem startBit_txq (sr : Byte) (nb : BitVec 4) (s : State) : (startBit sr nb s).txq = s.txq := rfl
@[simp] theorem startBit_sr (sr : Byte) (nb : BitVec 4) (s : State) :
    (startBit sr nb s).sr = if s.cfg.msbFirst then sr <<< 1 else sr >>> 1 := rfl
@[simp] theorem startBit_nb (sr : Byte) (nb : BitVec 4) (s : State) :
    (startBit sr nb s).nb = nb - 1 := rfl
@[simp] theorem startBit_ph (sr : Byte) (nb : BitVec 4) (s : State) :
    (startBit sr nb s).ph = .hi := rfl
@[simp] theorem startBit_np (sr : Byte) (nb : BitVec 4) (s : State) :
    (startBit sr nb s).np = s.cfg.pulses (if s.cfg.msbFirst then sr.msb else sr.getLsbD 0) - 1 := rfl
@[simp] theorem startBit_tmr (sr : Byte) (nb : BitVec 4) (s : State) :
    (startBit sr nb s).tmr = s.cfg.tHi := rfl
@[simp] theorem startBit_divcnt (sr : Byte) (nb : BitVec 4) (s : State) : (startBit sr nb s).divcnt = s.divcnt := rfl
@[simp] theorem startBit_phase (sr : Byte) (nb : BitVec 4) (s : State) : (startBit sr nb s).phase = s.phase := rfl
@[simp] theorem startBit_smpq (sr : Byte) (nb : BitVec 4) (s : State) : (startBit sr nb s).smpq = s.smpq := rfl
@[simp] theorem startBit_lastSample (sr : Byte) (nb : BitVec 4) (s : State) : (startBit sr nb s).lastSample = s.lastSample := rfl
@[simp] theorem startBit_acc (sr : Byte) (nb : BitVec 4) (s : State) : (startBit sr nb s).acc = s.acc := rfl
@[simp] theorem startBit_cnt (sr : Byte) (nb : BitVec 4) (s : State) : (startBit sr nb s).cnt = s.cnt := rfl
@[simp] theorem startBit_slot (sr : Byte) (nb : BitVec 4) (s : State) : (startBit sr nb s).slot = s.slot := rfl
@[simp] theorem startBit_wptr (sr : Byte) (nb : BitVec 4) (s : State) : (startBit sr nb s).wptr = s.wptr := rfl
@[simp] theorem startBit_rptr (sr : Byte) (nb : BitVec 4) (s : State) : (startBit sr nb s).rptr = s.rptr := rfl
@[simp] theorem startBit_rptrP (sr : Byte) (nb : BitVec 4) (s : State) : (startBit sr nb s).rptrP = s.rptrP := rfl
@[simp] theorem startBit_wptrC (sr : Byte) (nb : BitVec 4) (s : State) : (startBit sr nb s).wptrC = s.wptrC := rfl
@[simp] theorem startBit_rptrPast (sr : Byte) (nb : BitVec 4) (s : State) : (startBit sr nb s).rptrPast = s.rptrPast := rfl
@[simp] theorem startBit_wptrPast (sr : Byte) (nb : BitVec 4) (s : State) : (startBit sr nb s).wptrPast = s.wptrPast := rfl
@[simp] theorem startBit_cfg (sr : Byte) (nb : BitVec 4) (s : State) : (startBit sr nb s).cfg = s.cfg := rfl
@[simp] theorem startBit_host (sr : Byte) (nb : BitVec 4) (s : State) : (startBit sr nb s).host = s.host := rfl
@[simp] theorem startBit_lines (sr : Byte) (nb : BitVec 4) (s : State) : (startBit sr nb s).lines = s.lines := rfl
@[simp] theorem startBit_script (sr : Byte) (nb : BitVec 4) (s : State) : (startBit sr nb s).script = s.script := rfl
@[simp] theorem startBit_trace (sr : Byte) (nb : BitVec 4) (s : State) : (startBit sr nb s).trace = s.trace := rfl
@[simp] theorem startBit_draws (sr : Byte) (nb : BitVec 4) (s : State) : (startBit sr nb s).draws = s.draws := rfl

/-! `drainReturns` (R80): HOST and the trace. -/

@[simp] theorem drainReturns_txq (s : State) : (drainReturns s).txq = s.txq := rfl
@[simp] theorem drainReturns_sr (s : State) : (drainReturns s).sr = s.sr := rfl
@[simp] theorem drainReturns_nb (s : State) : (drainReturns s).nb = s.nb := rfl
@[simp] theorem drainReturns_ph (s : State) : (drainReturns s).ph = s.ph := rfl
@[simp] theorem drainReturns_np (s : State) : (drainReturns s).np = s.np := rfl
@[simp] theorem drainReturns_tmr (s : State) : (drainReturns s).tmr = s.tmr := rfl
@[simp] theorem drainReturns_divcnt (s : State) : (drainReturns s).divcnt = s.divcnt := rfl
@[simp] theorem drainReturns_phase (s : State) : (drainReturns s).phase = s.phase := rfl
@[simp] theorem drainReturns_smpq (s : State) : (drainReturns s).smpq = s.smpq := rfl
@[simp] theorem drainReturns_lastSample (s : State) : (drainReturns s).lastSample = s.lastSample := rfl
@[simp] theorem drainReturns_acc (s : State) : (drainReturns s).acc = s.acc := rfl
@[simp] theorem drainReturns_cnt (s : State) : (drainReturns s).cnt = s.cnt := rfl
@[simp] theorem drainReturns_slot (s : State) : (drainReturns s).slot = s.slot := rfl
@[simp] theorem drainReturns_wptr (s : State) : (drainReturns s).wptr = s.wptr := rfl
@[simp] theorem drainReturns_rptr (s : State) : (drainReturns s).rptr = s.rptr := rfl
@[simp] theorem drainReturns_rptrP (s : State) : (drainReturns s).rptrP = s.rptrP := rfl
@[simp] theorem drainReturns_wptrC (s : State) : (drainReturns s).wptrC = s.wptrC := rfl
@[simp] theorem drainReturns_rptrPast (s : State) : (drainReturns s).rptrPast = s.rptrPast := rfl
@[simp] theorem drainReturns_wptrPast (s : State) : (drainReturns s).wptrPast = s.wptrPast := rfl
@[simp] theorem drainReturns_cfg (s : State) : (drainReturns s).cfg = s.cfg := rfl
@[simp] theorem drainReturns_host (s : State) : (drainReturns s).host = .idle := rfl
@[simp] theorem drainReturns_lines (s : State) : (drainReturns s).lines = s.lines := rfl
@[simp] theorem drainReturns_script (s : State) : (drainReturns s).script = s.script := rfl
@[simp] theorem drainReturns_trace (s : State) :
    (drainReturns s).trace = s.trace ++ [.drained] := rfl
@[simp] theorem drainReturns_draws (s : State) : (drainReturns s).draws = s.draws := rfl

/-! `resetBlock` (R152): every element of the block. -/

@[simp] theorem resetBlock_txq (s : State) :
    (resetBlock s).txq = [] := rfl
@[simp] theorem resetBlock_sr (s : State) :
    (resetBlock s).sr = 0x00#8 := rfl
@[simp] theorem resetBlock_nb (s : State) :
    (resetBlock s).nb = 0#4 := rfl
@[simp] theorem resetBlock_ph (s : State) :
    (resetBlock s).ph = .idle := rfl
@[simp] theorem resetBlock_np (s : State) :
    (resetBlock s).np = 0 := rfl
@[simp] theorem resetBlock_tmr (s : State) :
    (resetBlock s).tmr = 0 := rfl
@[simp] theorem resetBlock_divcnt (s : State) :
    (resetBlock s).divcnt = 0 := rfl
@[simp] theorem resetBlock_phase (s : State) :
    (resetBlock s).phase = s.lines := rfl
@[simp] theorem resetBlock_smpq (s : State) :
    (resetBlock s).smpq = [] := rfl
@[simp] theorem resetBlock_lastSample (s : State) :
    (resetBlock s).lastSample = 0#4 := rfl
@[simp] theorem resetBlock_acc (s : State) :
    (resetBlock s).acc = false := rfl
@[simp] theorem resetBlock_cnt (s : State) :
    (resetBlock s).cnt = 0#4 := rfl
@[simp] theorem resetBlock_slot (s : State) :
    (resetBlock s).slot = Vector.ofFn fun k => Config.slotAfterReset s.draws k := rfl
@[simp] theorem resetBlock_wptr (s : State) :
    (resetBlock s).wptr = 0 := rfl
@[simp] theorem resetBlock_rptr (s : State) :
    (resetBlock s).rptr = 0 := rfl
@[simp] theorem resetBlock_rptrP (s : State) :
    (resetBlock s).rptrP = 0 := rfl
@[simp] theorem resetBlock_wptrC (s : State) :
    (resetBlock s).wptrC = 0 := rfl
@[simp] theorem resetBlock_rptrPast (s : State) :
    (resetBlock s).rptrPast = [] := rfl
@[simp] theorem resetBlock_wptrPast (s : State) :
    (resetBlock s).wptrPast = [] := rfl
@[simp] theorem resetBlock_cfg (s : State) : (resetBlock s).cfg = s.cfg := rfl
@[simp] theorem resetBlock_host (s : State) : (resetBlock s).host = .idle := rfl
@[simp] theorem resetBlock_lines (s : State) : (resetBlock s).lines = s.lines := rfl
@[simp] theorem resetBlock_script (s : State) : (resetBlock s).script = s.script := rfl
@[simp] theorem resetBlock_trace (s : State) : (resetBlock s).trace = s.trace := rfl
@[simp] theorem resetBlock_draws (s : State) :
    (resetBlock s).draws = s.draws + 1 := rfl

/-! `countCycle` (R18): DIVCNT. -/

@[simp] theorem countCycle_txq (s : State) : (countCycle s).txq = s.txq := rfl
@[simp] theorem countCycle_sr (s : State) : (countCycle s).sr = s.sr := rfl
@[simp] theorem countCycle_nb (s : State) : (countCycle s).nb = s.nb := rfl
@[simp] theorem countCycle_ph (s : State) : (countCycle s).ph = s.ph := rfl
@[simp] theorem countCycle_np (s : State) : (countCycle s).np = s.np := rfl
@[simp] theorem countCycle_tmr (s : State) : (countCycle s).tmr = s.tmr := rfl
@[simp] theorem countCycle_divcnt (s : State) :
    (countCycle s).divcnt = if divWraps s then 0 else s.divcnt + 1 := rfl
@[simp] theorem countCycle_phase (s : State) : (countCycle s).phase = s.phase := rfl
@[simp] theorem countCycle_smpq (s : State) : (countCycle s).smpq = s.smpq := rfl
@[simp] theorem countCycle_lastSample (s : State) : (countCycle s).lastSample = s.lastSample := rfl
@[simp] theorem countCycle_acc (s : State) : (countCycle s).acc = s.acc := rfl
@[simp] theorem countCycle_cnt (s : State) : (countCycle s).cnt = s.cnt := rfl
@[simp] theorem countCycle_slot (s : State) : (countCycle s).slot = s.slot := rfl
@[simp] theorem countCycle_wptr (s : State) : (countCycle s).wptr = s.wptr := rfl
@[simp] theorem countCycle_rptr (s : State) : (countCycle s).rptr = s.rptr := rfl
@[simp] theorem countCycle_rptrP (s : State) : (countCycle s).rptrP = s.rptrP := rfl
@[simp] theorem countCycle_wptrC (s : State) : (countCycle s).wptrC = s.wptrC := rfl
@[simp] theorem countCycle_rptrPast (s : State) : (countCycle s).rptrPast = s.rptrPast := rfl
@[simp] theorem countCycle_wptrPast (s : State) : (countCycle s).wptrPast = s.wptrPast := rfl
@[simp] theorem countCycle_cfg (s : State) : (countCycle s).cfg = s.cfg := rfl
@[simp] theorem countCycle_host (s : State) : (countCycle s).host = s.host := rfl
@[simp] theorem countCycle_lines (s : State) : (countCycle s).lines = s.lines := rfl
@[simp] theorem countCycle_script (s : State) : (countCycle s).script = s.script := rfl
@[simp] theorem countCycle_trace (s : State) : (countCycle s).trace = s.trace := rfl
@[simp] theorem countCycle_draws (s : State) : (countCycle s).draws = s.draws := rfl

/-! `showPending` (R172): only the trace. -/

@[simp] theorem showPending_txq (s : State) : (showPending s).txq = s.txq := rfl
@[simp] theorem showPending_sr (s : State) : (showPending s).sr = s.sr := rfl
@[simp] theorem showPending_nb (s : State) : (showPending s).nb = s.nb := rfl
@[simp] theorem showPending_ph (s : State) : (showPending s).ph = s.ph := rfl
@[simp] theorem showPending_np (s : State) : (showPending s).np = s.np := rfl
@[simp] theorem showPending_tmr (s : State) : (showPending s).tmr = s.tmr := rfl
@[simp] theorem showPending_divcnt (s : State) : (showPending s).divcnt = s.divcnt := rfl
@[simp] theorem showPending_phase (s : State) : (showPending s).phase = s.phase := rfl
@[simp] theorem showPending_smpq (s : State) : (showPending s).smpq = s.smpq := rfl
@[simp] theorem showPending_lastSample (s : State) : (showPending s).lastSample = s.lastSample := rfl
@[simp] theorem showPending_acc (s : State) : (showPending s).acc = s.acc := rfl
@[simp] theorem showPending_cnt (s : State) : (showPending s).cnt = s.cnt := rfl
@[simp] theorem showPending_slot (s : State) : (showPending s).slot = s.slot := rfl
@[simp] theorem showPending_wptr (s : State) : (showPending s).wptr = s.wptr := rfl
@[simp] theorem showPending_rptr (s : State) : (showPending s).rptr = s.rptr := rfl
@[simp] theorem showPending_rptrP (s : State) : (showPending s).rptrP = s.rptrP := rfl
@[simp] theorem showPending_wptrC (s : State) : (showPending s).wptrC = s.wptrC := rfl
@[simp] theorem showPending_rptrPast (s : State) : (showPending s).rptrPast = s.rptrPast := rfl
@[simp] theorem showPending_wptrPast (s : State) : (showPending s).wptrPast = s.wptrPast := rfl
@[simp] theorem showPending_cfg (s : State) : (showPending s).cfg = s.cfg := rfl
@[simp] theorem showPending_host (s : State) : (showPending s).host = s.host := rfl
@[simp] theorem showPending_lines (s : State) : (showPending s).lines = s.lines := rfl
@[simp] theorem showPending_script (s : State) : (showPending s).script = s.script := rfl
@[simp] theorem showPending_trace (s : State) :
    (showPending s).trace = s.trace ++ [.smpPending (smpPending s)] := rfl
@[simp] theorem showPending_draws (s : State) : (showPending s).draws = s.draws := rfl

end Sys2Proof.Machine
end

