-- ==== Sys2Proof/Laws/Ops.lean ====
section
/-! SUPPORT. For each shared operation, once, everything it can do; and the fields it leaves alone. -/

namespace Sys2Proof.Machine

/-! ### Answers -/

@[simp] theorem andThen_next (s : State) (f : State → Answer) : andThen (.next s) f = f s := rfl
@[simp] theorem andThen_refused (r : Refusal) (f : State → Answer) : andThen (.refused r) f = .refused r := rfl

/-- A composed answer is a next state only through a next state. -/
theorem andThen_eq_next {a : Answer} {f : State → Answer} {t : State} (h : andThen a f = .next t) :
    ∃ s, a = .next s ∧ f s = .next t := by
  cases a with
  | next s => exact ⟨s, rfl, h⟩
  | fault r => cases h
  | refused r => cases h

/-! ### Flags as propositions -/

@[simp] theorem txFull_iff (s : State) : txFull s = true ↔ s.txq.length = s.cfg.txqDepth := by
  simp [txFull]

theorem txFull_eq_false {s : State} (h : s.txq.length < s.cfg.txqDepth) : txFull s = false := by
  simp [txFull]; omega

theorem txBusy_iff (s : State) : txBusy s = true ↔ s.txq ≠ [] ∨ s.ph ≠ .idle := by
  simp [txBusy, List.length_pos_iff]

theorem txBusy_eq_false_iff (s : State) : txBusy s = false ↔ s.txq = [] ∧ s.ph = .idle := by
  simp [txBusy]

theorem evqFull_iff (s : State) : evqFull s = true ↔ cursorDistance (rptrSeen s) s.wptr = s.cfg.source.evqCap := by
  simp [evqFull]

theorem evqEmpty_iff (s : State) : evqEmpty s = true ↔ wptrSeen s = s.rptr := by
  simp [evqEmpty]

/-! ### Cursors (R118) -/

theorem slotIndex_eq (c : Cursor) : slotIndex c = c.toNat % 32 := rfl

/-- "Bits [4:0]" (R28). -/
theorem slotIndex_eq_low_bits (c : Cursor) : slotIndex c = (c.setWidth 5).toNat := by
  simp [slotIndex]

@[simp] theorem cursorDistance_self (c : Cursor) : cursorDistance c c = 0 := by
  simp [cursorDistance]

theorem cursorDistance_eq_zero {a b : Cursor} : cursorDistance a b = 0 ↔ a = b := by
  change BitVec 6 at a b
  change (b - a).toNat = 0 ↔ a = b
  constructor <;> intro h <;> bv_omega

/-- How far `cursorAdvance` moves: at most up to the true cursor (R123). -/
theorem cursorDistance_advance (old new : Cursor) (want : Nat) :
    cursorDistance old (cursorAdvance old new want) = want % (cursorDistance old new + 1) := by
  have h : want % (cursorDistance old new + 1) < cursorDistance old new + 1 := Nat.mod_lt _ (by omega)
  have h64 : cursorDistance old new < 64 := (new - old).isLt
  unfold cursorAdvance
  generalize want % (cursorDistance old new + 1) = k at h ⊢
  rw [cursorDistance, show old + BitVec.ofNat _ k - old = BitVec.ofNat _ k by ring, BitVec.toNat_ofNat]
  exact Nat.mod_eq_of_lt (show k < 64 by omega)

/-- Every value from the old copy up to the true cursor is a value a SYNC step may copy (R123). -/
theorem cursorAdvance_surjective (old new v : Cursor) (h : cursorDistance old v ≤ cursorDistance old new) :
    ∃ want, cursorAdvance old new want = v := by
  refine ⟨cursorDistance old v, ?_⟩
  unfold cursorAdvance
  rw [Nat.mod_eq_of_lt (by omega), cursorDistance, BitVec.ofNat_toNat, BitVec.setWidth_eq]
  ring

/-- A copy that has caught up stays (R173). -/
@[simp] theorem cursorAdvance_self (c : Cursor) (want : Nat) : cursorAdvance c c want = c := by
  simp [cursorAdvance, Nat.mod_one]

/-- Everything a SYNC step can copy (R123, R173). -/
theorem syncCopy_cases (s : State) (old new : Cursor) (past : List Cursor) :
    (past = List.replicate s.cfg.evqLag new ∧ syncCopy s old new past = new) ∨
    (past ≠ List.replicate s.cfg.evqLag new ∧
      syncCopy s old new past = cursorAdvance old new (Config.syncAdvance s.draws)) := by
  by_cases h : past = List.replicate s.cfg.evqLag new
  · exact .inl ⟨h, if_pos (beq_iff_eq.2 h)⟩
  · exact .inr ⟨h, if_neg (fun c => h (beq_iff_eq.1 c))⟩

/-- A SYNC step moves its copy forward, never past the cursor (R123). -/
theorem cursorDistance_syncCopy_le (s : State) (old new : Cursor) (past : List Cursor) :
    cursorDistance old (syncCopy s old new past) ≤ cursorDistance old new := by
  rcases syncCopy_cases s old new past with ⟨_, h⟩ | ⟨_, h⟩ <;> rw [h]
  rw [cursorDistance_advance]
  have : Config.syncAdvance s.draws % (cursorDistance old new + 1) < cursorDistance old new + 1 :=
    Nat.mod_lt _ (by omega)
  omega

/-- The Gray code can be undone (R124). -/
theorem grayDecode_grayEncode (c : Cursor) : grayDecode (grayEncode c) = c := by
  revert c; decide

/-- One increment of a cursor changes one bit of its Gray code (R124). -/
theorem grayEncode_succ (c : Cursor) :
    ∃ k : Fin 6, grayEncode (c + 1) = grayEncode c ^^^ BitVec.twoPow _ k := by
  revert c; decide

/-! ### Queue primitives (R170) -/

/-- Everything `presentByte` can do (R78). -/
theorem presentByte_cases (d : Byte) (s : State) :
    (s.txq.length = s.cfg.txqDepth ∧ presentByte d s = { s with host := .enqueue d }) ∨
    (s.txq.length ≠ s.cfg.txqDepth ∧ presentByte d s =
      { s with txq := s.txq ++ [d], host := .idle, trace := s.trace ++ [.accepted d] }) := by
  by_cases h : s.txq.length = s.cfg.txqDepth
  · exact .inl ⟨h, if_pos ((txFull_iff s).2 h)⟩
  · exact .inr ⟨h, if_neg (fun c => h ((txFull_iff s).1 c))⟩

/-- Everything `loadByte` can do (R82, R86). -/
theorem loadByte_cases (s idle : State) :
    (s.txq = [] ∧ loadByte s idle = idle) ∨
    (∃ d rest, s.txq = d :: rest ∧ loadByte s idle = startBit d 8#4 { s with txq := rest }) := by
  unfold loadByte
  split
  · exact .inl ⟨‹_›, rfl⟩
  · exact .inr ⟨_, _, ‹_›, rfl⟩

/-- Everything `pushSample` can do (R97, R98). -/
theorem pushSample_cases (x : Sample) (s : State) :
    (s.smpq.length < s.cfg.smpqDepth ∧ pushSample x s = { s with smpq := s.smpq ++ [x] }) ∨
    (s.cfg.smpqDepth ≤ s.smpq.length ∧ pushSample x s = s) := by
  unfold pushSample
  split
  · exact .inl ⟨‹_›, rfl⟩
  · exact .inr ⟨Nat.le_of_not_lt ‹_›, rfl⟩

/-- Everything `publish` can do (R114). -/
theorem publish_cases (e : KeyEvent) (s : State) :
    (cursorDistance (rptrSeen s) s.wptr = s.cfg.source.evqCap ∧ publish e s = s) ∨
    (cursorDistance (rptrSeen s) s.wptr ≠ s.cfg.source.evqCap ∧ publish e s = { s with
      slot := s.slot.set (slotIndex s.wptr) e.code (slotIndex_lt s.wptr), wptr := s.wptr + 1 }) := by
  by_cases h : cursorDistance (rptrSeen s) s.wptr = s.cfg.source.evqCap
  · exact .inl ⟨h, if_pos ((evqFull_iff s).2 h)⟩
  · exact .inr ⟨h, if_neg (fun c => h ((evqFull_iff s).1 c))⟩

/-- Everything `takeEvent` can do (R115). -/
theorem takeEvent_cases (s : State) :
    (wptrSeen s = s.rptr ∧ takeEvent s = s ∧ evr s = 0b000#3) ∨
    (wptrSeen s ≠ s.rptr ∧ takeEvent s = { s with rptr := s.rptr + 1 } ∧ evr s = 1#1 ++ slotAt s s.rptr) := by
  by_cases h : wptrSeen s = s.rptr
  · exact .inl ⟨h, by simp [takeEvent, evqEmpty, h], by simp [evr, evrOf, evValid, evCode, evqEmpty, h]⟩
  · have hb : (wptrSeen s == s.rptr) = false := beq_eq_false_iff_ne.2 h
    exact .inr ⟨h, by simp [takeEvent, evqEmpty, h], by simp [evr, evrOf, evValid, evCode, evqEmpty, hb]⟩

/-! ### The engine (R82 to R86, R169) -/

/-- Everything PTE_TICK can do to the engine: the rows of R169. -/
theorem tick_cases (s : State) :
    (s.ph = .idle ∧ s.txq = [] ∧ tick s = s) ∨
    (∃ d rest, s.ph = .idle ∧ s.txq = d :: rest ∧ tick s = startBit d 8#4 { s with txq := rest }) ∨
    (s.ph ≠ .idle ∧ 1 < s.tmr ∧ tick s = { s with tmr := s.tmr - 1 }) ∨
    (s.ph = .hi ∧ s.tmr ≤ 1 ∧ tick s = { s with ph := .lo, tmr := s.cfg.tLo }) ∨
    (s.ph = .lo ∧ s.tmr ≤ 1 ∧ 0 < s.np ∧ tick s = { s with np := s.np - 1, ph := .hi, tmr := s.cfg.tHi }) ∨
    (s.ph = .lo ∧ s.tmr ≤ 1 ∧ s.np = 0 ∧ tick s = { s with ph := .gap, tmr := s.cfg.tGap }) ∨
    (s.ph = .gap ∧ s.tmr ≤ 1 ∧ s.nb ≠ 0#4 ∧ tick s = startBit s.sr s.nb s) ∨
    (∃ d rest, s.ph = .gap ∧ s.tmr ≤ 1 ∧ s.nb = 0#4 ∧ s.txq = d :: rest ∧
      tick s = startBit d 8#4 { s with txq := rest }) ∨
    (s.ph = .gap ∧ s.tmr ≤ 1 ∧ s.nb = 0#4 ∧ s.txq = [] ∧ tick s = { s with ph := .idle, tmr := 0 }) := by
  have hnb : (0#4 < s.nb) ↔ s.nb ≠ 0#4 := by constructor <;> intro h <;> bv_omega
  cases hp : s.ph with
  | idle =>
    have ht : tick s = loadByte s s := by simp [tick, hp, tickIdle]
    rcases loadByte_cases s s with ⟨hq, h⟩ | ⟨d, rest, hq, h⟩
    · exact .inl ⟨rfl, hq, ht.trans h⟩
    · exact .inr (.inl ⟨d, rest, rfl, hq, ht.trans h⟩)
  | hi =>
    by_cases h : 1 < s.tmr
    · exact .inr (.inr (.inl ⟨by simp, h, by simp [tick, hp, tickHi, h]⟩))
    · exact .inr (.inr (.inr (.inl ⟨rfl, by omega, by simp [tick, hp, tickHi, h]⟩)))
  | lo =>
    by_cases h : 1 < s.tmr
    · exact .inr (.inr (.inl ⟨by simp, h, by simp [tick, hp, tickLo, h]⟩))
    · by_cases hn : 0 < s.np
      · exact .inr (.inr (.inr (.inr (.inl ⟨rfl, by omega, hn, by simp [tick, hp, tickLo, h, hn]⟩))))
      · exact .inr (.inr (.inr (.inr (.inr (.inl ⟨rfl, by omega, by omega, by simp [tick, hp, tickLo, h, hn]⟩)))))
  | gap =>
    by_cases h : 1 < s.tmr
    · exact .inr (.inr (.inl ⟨by simp, h, by simp [tick, hp, tickGap, h]⟩))
    · by_cases hn : s.nb = 0#4
      · have ht : tick s = loadByte s { s with ph := .idle, tmr := 0 } := by simp [tick, hp, tickGap, h, hn]
        rcases loadByte_cases s { s with ph := .idle, tmr := 0 } with ⟨hq, e⟩ | ⟨d, rest, hq, e⟩
        · exact .inr (.inr (.inr (.inr (.inr (.inr (.inr (.inr ⟨rfl, by omega, hn, hq, ht.trans e⟩)))))))
        · exact .inr (.inr (.inr (.inr (.inr (.inr (.inr (.inl
            ⟨d, rest, rfl, by omega, hn, hq, ht.trans e⟩)))))))
      · exact .inr (.inr (.inr (.inr (.inr (.inr (.inl
          ⟨rfl, by omega, hn, by simp [tick, hp, tickGap, h, hnb.2 hn]⟩))))))

/-! ### The decoder and the debouncer (R99, R105) -/

/-- Everything QDEC_STEP can do (R99). -/
theorem qdecStep_cases (x : Sample) (s : State) :
    (s.smpq.head? ≠ some x ∧ qdecStep x s = s) ∨
    (∃ q, s.smpq = x :: q ∧
      qdecStep x s = publishSome (classify x).event { s with smpq := q, lastSample := x }) := by
  unfold qdecStep
  split
  · exact .inl ⟨by simp_all, rfl⟩
  · split
    · rename_i head rest hq hx
      subst hx
      exact .inr ⟨rest, hq, rfl⟩
    · rename_i head rest hq hx
      exact .inl ⟨by simp [hq, hx], rfl⟩

/-- Everything DEB_TICK can do: the rows of R106. -/
theorem debounce_cases (level : Bool) (s : State) :
    (level = s.acc ∧ debounce level s = { s with cnt := 0#4 }) ∨
    (level ≠ s.acc ∧ s.cnt = 0#4 ∧ debounce level s = { s with cnt := s.cfg.source.debTicks }) ∨
    (level ≠ s.acc ∧ s.cnt = 1#4 ∧
      debounce level s = publishSome (if level then some .enter else none) { s with acc := level, cnt := 0#4 }) ∨
    (level ≠ s.acc ∧ s.cnt ≠ 0#4 ∧ s.cnt ≠ 1#4 ∧ debounce level s = { s with cnt := s.cnt - 1 }) := by
  have h1 : s.cnt - 1 = 0#4 ↔ s.cnt = 1#4 := by constructor <;> intro h <;> bv_omega
  by_cases ha : level = s.acc
  · exact .inl ⟨ha, if_pos ha⟩
  by_cases h0 : s.cnt = 0#4
  · exact .inr (.inl ⟨ha, h0, by simp only [debounce, if_neg ha, if_pos h0]⟩)
  by_cases hc : s.cnt = 1#4
  · exact .inr (.inr (.inl ⟨ha, hc, by simp only [debounce, if_neg ha, if_neg h0, if_pos (h1.2 hc), acceptLevel]⟩))
  · exact .inr (.inr (.inr ⟨ha, h0, hc, by simp only [debounce, if_neg ha, if_neg h0, if_neg (mt h1.1 hc)]⟩))

/-! ### The fields each operation leaves alone -/

@[simp] theorem presentByte_sr (d : Byte) (s : State) : (presentByte d s).sr = s.sr := by
  unfold presentByte; split <;> rfl
@[simp] theorem presentByte_nb (d : Byte) (s : State) : (presentByte d s).nb = s.nb := by
  unfold presentByte; split <;> rfl
@[simp] theorem presentByte_ph (d : Byte) (s : State) : (presentByte d s).ph = s.ph := by
  unfold presentByte; split <;> rfl
@[simp] theorem presentByte_np (d : Byte) (s : State) : (presentByte d s).np = s.np := by
  unfold presentByte; split <;> rfl
@[simp] theorem presentByte_tmr (d : Byte) (s : State) : (presentByte d s).tmr = s.tmr := by
  unfold presentByte; split <;> rfl
@[simp] theorem presentByte_divcnt (d : Byte) (s : State) : (presentByte d s).divcnt = s.divcnt := by
  unfold presentByte; split <;> rfl
@[simp] theorem presentByte_phase (d : Byte) (s : State) : (presentByte d s).phase = s.phase := by
  unfold presentByte; split <;> rfl
@[simp] theorem presentByte_smpq (d : Byte) (s : State) : (presentByte d s).smpq = s.smpq := by
  unfold presentByte; split <;> rfl
@[simp] theorem presentByte_lastSample (d : Byte) (s : State) : (presentByte d s).lastSample = s.lastSample := by
  unfold presentByte; split <;> rfl
@[simp] theorem presentByte_acc (d : Byte) (s : State) : (presentByte d s).acc = s.acc := by
  unfold presentByte; split <;> rfl
@[simp] theorem presentByte_cnt (d : Byte) (s : State) : (presentByte d s).cnt = s.cnt := by
  unfold presentByte; split <;> rfl
@[simp] theorem presentByte_slot (d : Byte) (s : State) : (presentByte d s).slot = s.slot := by
  unfold presentByte; split <;> rfl
@[simp] theorem presentByte_wptr (d : Byte) (s : State) : (presentByte d s).wptr = s.wptr := by
  unfold presentByte; split <;> rfl
@[simp] theorem presentByte_rptr (d : Byte) (s : State) : (presentByte d s).rptr = s.rptr := by
  unfold presentByte; split <;> rfl
@[simp] theorem presentByte_rptrP (d : Byte) (s : State) : (presentByte d s).rptrP = s.rptrP := by
  unfold presentByte; split <;> rfl
@[simp] theorem presentByte_wptrC (d : Byte) (s : State) : (presentByte d s).wptrC = s.wptrC := by
  unfold presentByte; split <;> rfl
@[simp] theorem presentByte_rptrPast (d : Byte) (s : State) : (presentByte d s).rptrPast = s.rptrPast := by
  unfold presentByte; split <;> rfl
@[simp] theorem presentByte_wptrPast (d : Byte) (s : State) : (presentByte d s).wptrPast = s.wptrPast := by
  unfold presentByte; split <;> rfl
@[simp] theorem presentByte_cfg (d : Byte) (s : State) : (presentByte d s).cfg = s.cfg := by
  unfold presentByte; split <;> rfl
@[simp] theorem presentByte_lines (d : Byte) (s : State) : (presentByte d s).lines = s.lines := by
  unfold presentByte; split <;> rfl
@[simp] theorem presentByte_script (d : Byte) (s : State) : (presentByte d s).script = s.script := by
  unfold presentByte; split <;> rfl
@[simp] theorem presentByte_draws (d : Byte) (s : State) : (presentByte d s).draws = s.draws := by
  unfold presentByte; split <;> rfl

@[simp] theorem pushSample_txq (x : Sample) (s : State) : (pushSample x s).txq = s.txq := by
  unfold pushSample; split <;> rfl
@[simp] theorem pushSample_sr (x : Sample) (s : State) : (pushSample x s).sr = s.sr := by
  unfold pushSample; split <;> rfl
@[simp] theorem pushSample_nb (x : Sample) (s : State) : (pushSample x s).nb = s.nb := by
  unfold pushSample; split <;> rfl
@[simp] theorem pushSample_ph (x : Sample) (s : State) : (pushSample x s).ph = s.ph := by
  unfold pushSample; split <;> rfl
@[simp] theorem pushSample_np (x : Sample) (s : State) : (pushSample x s).np = s.np := by
  unfold pushSample; split <;> rfl
@[simp] theorem pushSample_tmr (x : Sample) (s : State) : (pushSample x s).tmr = s.tmr := by
  unfold pushSample; split <;> rfl
@[simp] theorem pushSample_divcnt (x : Sample) (s : State) : (pushSample x s).divcnt = s.divcnt := by
  unfold pushSample; split <;> rfl
@[simp] theorem pushSample_phase (x : Sample) (s : State) : (pushSample x s).phase = s.phase := by
  unfold pushSample; split <;> rfl
@[simp] theorem pushSample_lastSample (x : Sample) (s : State) : (pushSample x s).lastSample = s.lastSample := by
  unfold pushSample; split <;> rfl
@[simp] theorem pushSample_acc (x : Sample) (s : State) : (pushSample x s).acc = s.acc := by
  unfold pushSample; split <;> rfl
@[simp] theorem pushSample_cnt (x : Sample) (s : State) : (pushSample x s).cnt = s.cnt := by
  unfold pushSample; split <;> rfl
@[simp] theorem pushSample_slot (x : Sample) (s : State) : (pushSample x s).slot = s.slot := by
  unfold pushSample; split <;> rfl
@[simp] theorem pushSample_wptr (x : Sample) (s : State) : (pushSample x s).wptr = s.wptr := by
  unfold pushSample; split <;> rfl
@[simp] theorem pushSample_rptr (x : Sample) (s : State) : (pushSample x s).rptr = s.rptr := by
  unfold pushSample; split <;> rfl
@[simp] theorem pushSample_rptrP (x : Sample) (s : State) : (pushSample x s).rptrP = s.rptrP := by
  unfold pushSample; split <;> rfl
@[simp] theorem pushSample_wptrC (x : Sample) (s : State) : (pushSample x s).wptrC = s.wptrC := by
  unfold pushSample; split <;> rfl
@[simp] theorem pushSample_rptrPast (x : Sample) (s : State) : (pushSample x s).rptrPast = s.rptrPast := by
  unfold pushSample; split <;> rfl
@[simp] theorem pushSample_wptrPast (x : Sample) (s : State) : (pushSample x s).wptrPast = s.wptrPast := by
  unfold pushSample; split <;> rfl
@[simp] theorem pushSample_cfg (x : Sample) (s : State) : (pushSample x s).cfg = s.cfg := by
  unfold pushSample; split <;> rfl
@[simp] theorem pushSample_host (x : Sample) (s : State) : (pushSample x s).host = s.host := by
  unfold pushSample; split <;> rfl
@[simp] theorem pushSample_lines (x : Sample) (s : State) : (pushSample x s).lines = s.lines := by
  unfold pushSample; split <;> rfl
@[simp] theorem pushSample_script (x : Sample) (s : State) : (pushSample x s).script = s.script := by
  unfold pushSample; split <;> rfl
@[simp] theorem pushSample_trace (x : Sample) (s : State) : (pushSample x s).trace = s.trace := by
  unfold pushSample; split <;> rfl
@[simp] theorem pushSample_draws (x : Sample) (s : State) : (pushSample x s).draws = s.draws := by
  unfold pushSample; split <;> rfl

@[simp] theorem publish_txq (e : KeyEvent) (s : State) : (publish e s).txq = s.txq := by
  unfold publish; split <;> rfl
@[simp] theorem publish_sr (e : KeyEvent) (s : State) : (publish e s).sr = s.sr := by
  unfold publish; split <;> rfl
@[simp] theorem publish_nb (e : KeyEvent) (s : State) : (publish e s).nb = s.nb := by
  unfold publish; split <;> rfl
@[simp] theorem publish_ph (e : KeyEvent) (s : State) : (publish e s).ph = s.ph := by
  unfold publish; split <;> rfl
@[simp] theorem publish_np (e : KeyEvent) (s : State) : (publish e s).np = s.np := by
  unfold publish; split <;> rfl
@[simp] theorem publish_tmr (e : KeyEvent) (s : State) : (publish e s).tmr = s.tmr := by
  unfold publish; split <;> rfl
@[simp] theorem publish_divcnt (e : KeyEvent) (s : State) : (publish e s).divcnt = s.divcnt := by
  unfold publish; split <;> rfl
@[simp] theorem publish_phase (e : KeyEvent) (s : State) : (publish e s).phase = s.phase := by
  unfold publish; split <;> rfl
@[simp] theorem publish_smpq (e : KeyEvent) (s : State) : (publish e s).smpq = s.smpq := by
  unfold publish; split <;> rfl
@[simp] theorem publish_lastSample (e : KeyEvent) (s : State) : (publish e s).lastSample = s.lastSample := by
  unfold publish; split <;> rfl
@[simp] theorem publish_acc (e : KeyEvent) (s : State) : (publish e s).acc = s.acc := by
  unfold publish; split <;> rfl
@[simp] theorem publish_cnt (e : KeyEvent) (s : State) : (publish e s).cnt = s.cnt := by
  unfold publish; split <;> rfl
@[simp] theorem publish_rptr (e : KeyEvent) (s : State) : (publish e s).rptr = s.rptr := by
  unfold publish; split <;> rfl
@[simp] theorem publish_rptrP (e : KeyEvent) (s : State) : (publish e s).rptrP = s.rptrP := by
  unfold publish; split <;> rfl
@[simp] theorem publish_wptrC (e : KeyEvent) (s : State) : (publish e s).wptrC = s.wptrC := by
  unfold publish; split <;> rfl
@[simp] theorem publish_rptrPast (e : KeyEvent) (s : State) : (publish e s).rptrPast = s.rptrPast := by
  unfold publish; split <;> rfl
@[simp] theorem publish_wptrPast (e : KeyEvent) (s : State) : (publish e s).wptrPast = s.wptrPast := by
  unfold publish; split <;> rfl
@[simp] theorem publish_cfg (e : KeyEvent) (s : State) : (publish e s).cfg = s.cfg := by
  unfold publish; split <;> rfl
@[simp] theorem publish_host (e : KeyEvent) (s : State) : (publish e s).host = s.host := by
  unfold publish; split <;> rfl
@[simp] theorem publish_lines (e : KeyEvent) (s : State) : (publish e s).lines = s.lines := by
  unfold publish; split <;> rfl
@[simp] theorem publish_script (e : KeyEvent) (s : State) : (publish e s).script = s.script := by
  unfold publish; split <;> rfl
@[simp] theorem publish_trace (e : KeyEvent) (s : State) : (publish e s).trace = s.trace := by
  unfold publish; split <;> rfl
@[simp] theorem publish_draws (e : KeyEvent) (s : State) : (publish e s).draws = s.draws := by
  unfold publish; split <;> rfl

@[simp] theorem publishSome_txq (e : Option KeyEvent) (s : State) : (publishSome e s).txq = s.txq := by
  cases e <;> simp [publishSome]
@[simp] theorem publishSome_sr (e : Option KeyEvent) (s : State) : (publishSome e s).sr = s.sr := by
  cases e <;> simp [publishSome]
@[simp] theorem publishSome_nb (e : Option KeyEvent) (s : State) : (publishSome e s).nb = s.nb := by
  cases e <;> simp [publishSome]
@[simp] theorem publishSome_ph (e : Option KeyEvent) (s : State) : (publishSome e s).ph = s.ph := by
  cases e <;> simp [publishSome]
@[simp] theorem publishSome_np (e : Option KeyEvent) (s : State) : (publishSome e s).np = s.np := by
  cases e <;> simp [publishSome]
@[simp] theorem publishSome_tmr (e : Option KeyEvent) (s : State) : (publishSome e s).tmr = s.tmr := by
  cases e <;> simp [publishSome]
@[simp] theorem publishSome_divcnt (e : Option KeyEvent) (s : State) : (publishSome e s).divcnt = s.divcnt := by
  cases e <;> simp [publishSome]
@[simp] theorem publishSome_phase (e : Option KeyEvent) (s : State) : (publishSome e s).phase = s.phase := by
  cases e <;> simp [publishSome]
@[simp] theorem publishSome_smpq (e : Option KeyEvent) (s : State) : (publishSome e s).smpq = s.smpq := by
  cases e <;> simp [publishSome]
@[simp] theorem publishSome_lastSample (e : Option KeyEvent) (s : State) : (publishSome e s).lastSample = s.lastSample := by
  cases e <;> simp [publishSome]
@[simp] theorem publishSome_acc (e : Option KeyEvent) (s : State) : (publishSome e s).acc = s.acc := by
  cases e <;> simp [publishSome]
@[simp] theorem publishSome_cnt (e : Option KeyEvent) (s : State) : (publishSome e s).cnt = s.cnt := by
  cases e <;> simp [publishSome]
@[simp] theorem publishSome_rptr (e : Option KeyEvent) (s : State) : (publishSome e s).rptr = s.rptr := by
  cases e <;> simp [publishSome]
@[simp] theorem publishSome_rptrP (e : Option KeyEvent) (s : State) : (publishSome e s).rptrP = s.rptrP := by
  cases e <;> simp [publishSome]
@[simp] theorem publishSome_wptrC (e : Option KeyEvent) (s : State) : (publishSome e s).wptrC = s.wptrC := by
  cases e <;> simp [publishSome]
@[simp] theorem publishSome_rptrPast (e : Option KeyEvent) (s : State) : (publishSome e s).rptrPast = s.rptrPast := by
  cases e <;> simp [publishSome]
@[simp] theorem publishSome_wptrPast (e : Option KeyEvent) (s : State) : (publishSome e s).wptrPast = s.wptrPast := by
  cases e <;> simp [publishSome]
@[simp] theorem publishSome_cfg (e : Option KeyEvent) (s : State) : (publishSome e s).cfg = s.cfg := by
  cases e <;> simp [publishSome]
@[simp] theorem publishSome_host (e : Option KeyEvent) (s : State) : (publishSome e s).host = s.host := by
  cases e <;> simp [publishSome]
@[simp] theorem publishSome_lines (e : Option KeyEvent) (s : State) : (publishSome e s).lines = s.lines := by
  cases e <;> simp [publishSome]
@[simp] theorem publishSome_script (e : Option KeyEvent) (s : State) : (publishSome e s).script = s.script := by
  cases e <;> simp [publishSome]
@[simp] theorem publishSome_trace (e : Option KeyEvent) (s : State) : (publishSome e s).trace = s.trace := by
  cases e <;> simp [publishSome]
@[simp] theorem publishSome_draws (e : Option KeyEvent) (s : State) : (publishSome e s).draws = s.draws := by
  cases e <;> simp [publishSome]

@[simp] theorem takeEvent_txq (s : State) : (takeEvent s).txq = s.txq := by
  unfold takeEvent; split <;> rfl
@[simp] theorem takeEvent_sr (s : State) : (takeEvent s).sr = s.sr := by
  unfold takeEvent; split <;> rfl
@[simp] theorem takeEvent_nb (s : State) : (takeEvent s).nb = s.nb := by
  unfold takeEvent; split <;> rfl
@[simp] theorem takeEvent_ph (s : State) : (takeEvent s).ph = s.ph := by
  unfold takeEvent; split <;> rfl
@[simp] theorem takeEvent_np (s : State) : (takeEvent s).np = s.np := by
  unfold takeEvent; split <;> rfl
@[simp] theorem takeEvent_tmr (s : State) : (takeEvent s).tmr = s.tmr := by
  unfold takeEvent; split <;> rfl
@[simp] theorem takeEvent_divcnt (s : State) : (takeEvent s).divcnt = s.divcnt := by
  unfold takeEvent; split <;> rfl
@[simp] theorem takeEvent_phase (s : State) : (takeEvent s).phase = s.phase := by
  unfold takeEvent; split <;> rfl
@[simp] theorem takeEvent_smpq (s : State) : (takeEvent s).smpq = s.smpq := by
  unfold takeEvent; split <;> rfl
@[simp] theorem takeEvent_lastSample (s : State) : (takeEvent s).lastSample = s.lastSample := by
  unfold takeEvent; split <;> rfl
@[simp] theorem takeEvent_acc (s : State) : (takeEvent s).acc = s.acc := by
  unfold takeEvent; split <;> rfl
@[simp] theorem takeEvent_cnt (s : State) : (takeEvent s).cnt = s.cnt := by
  unfold takeEvent; split <;> rfl
@[simp] theorem takeEvent_slot (s : State) : (takeEvent s).slot = s.slot := by
  unfold takeEvent; split <;> rfl
@[simp] theorem takeEvent_wptr (s : State) : (takeEvent s).wptr = s.wptr := by
  unfold takeEvent; split <;> rfl
@[simp] theorem takeEvent_rptrP (s : State) : (takeEvent s).rptrP = s.rptrP := by
  unfold takeEvent; split <;> rfl
@[simp] theorem takeEvent_wptrC (s : State) : (takeEvent s).wptrC = s.wptrC := by
  unfold takeEvent; split <;> rfl
@[simp] theorem takeEvent_rptrPast (s : State) : (takeEvent s).rptrPast = s.rptrPast := by
  unfold takeEvent; split <;> rfl
@[simp] theorem takeEvent_wptrPast (s : State) : (takeEvent s).wptrPast = s.wptrPast := by
  unfold takeEvent; split <;> rfl
@[simp] theorem takeEvent_cfg (s : State) : (takeEvent s).cfg = s.cfg := by
  unfold takeEvent; split <;> rfl
@[simp] theorem takeEvent_host (s : State) : (takeEvent s).host = s.host := by
  unfold takeEvent; split <;> rfl
@[simp] theorem takeEvent_lines (s : State) : (takeEvent s).lines = s.lines := by
  unfold takeEvent; split <;> rfl
@[simp] theorem takeEvent_script (s : State) : (takeEvent s).script = s.script := by
  unfold takeEvent; split <;> rfl
@[simp] theorem takeEvent_trace (s : State) : (takeEvent s).trace = s.trace := by
  unfold takeEvent; split <;> rfl
@[simp] theorem takeEvent_draws (s : State) : (takeEvent s).draws = s.draws := by
  unfold takeEvent; split <;> rfl

@[simp] theorem tick_divcnt (s : State) : (tick s).divcnt = s.divcnt := by
  unfold tick tickIdle tickHi tickLo tickGap loadByte; repeat' (first | rfl | split)
@[simp] theorem tick_phase (s : State) : (tick s).phase = s.phase := by
  unfold tick tickIdle tickHi tickLo tickGap loadByte; repeat' (first | rfl | split)
@[simp] theorem tick_smpq (s : State) : (tick s).smpq = s.smpq := by
  unfold tick tickIdle tickHi tickLo tickGap loadByte; repeat' (first | rfl | split)
@[simp] theorem tick_lastSample (s : State) : (tick s).lastSample = s.lastSample := by
  unfold tick tickIdle tickHi tickLo tickGap loadByte; repeat' (first | rfl | split)
@[simp] theorem tick_acc (s : State) : (tick s).acc = s.acc := by
  unfold tick tickIdle tickHi tickLo tickGap loadByte; repeat' (first | rfl | split)
@[simp] theorem tick_cnt (s : State) : (tick s).cnt = s.cnt := by
  unfold tick tickIdle tickHi tickLo tickGap loadByte; repeat' (first | rfl | split)
@[simp] theorem tick_slot (s : State) : (tick s).slot = s.slot := by
  unfold tick tickIdle tickHi tickLo tickGap loadByte; repeat' (first | rfl | split)
@[simp] theorem tick_wptr (s : State) : (tick s).wptr = s.wptr := by
  unfold tick tickIdle tickHi tickLo tickGap loadByte; repeat' (first | rfl | split)
@[simp] theorem tick_rptr (s : State) : (tick s).rptr = s.rptr := by
  unfold tick tickIdle tickHi tickLo tickGap loadByte; repeat' (first | rfl | split)
@[simp] theorem tick_rptrP (s : State) : (tick s).rptrP = s.rptrP := by
  unfold tick tickIdle tickHi tickLo tickGap loadByte; repeat' (first | rfl | split)
@[simp] theorem tick_wptrC (s : State) : (tick s).wptrC = s.wptrC := by
  unfold tick tickIdle tickHi tickLo tickGap loadByte; repeat' (first | rfl | split)
@[simp] theorem tick_rptrPast (s : State) : (tick s).rptrPast = s.rptrPast := by
  unfold tick tickIdle tickHi tickLo tickGap loadByte; repeat' (first | rfl | split)
@[simp] theorem tick_wptrPast (s : State) : (tick s).wptrPast = s.wptrPast := by
  unfold tick tickIdle tickHi tickLo tickGap loadByte; repeat' (first | rfl | split)
@[simp] theorem tick_cfg (s : State) : (tick s).cfg = s.cfg := by
  unfold tick tickIdle tickHi tickLo tickGap loadByte; repeat' (first | rfl | split)
@[simp] theorem tick_host (s : State) : (tick s).host = s.host := by
  unfold tick tickIdle tickHi tickLo tickGap loadByte; repeat' (first | rfl | split)
@[simp] theorem tick_lines (s : State) : (tick s).lines = s.lines := by
  unfold tick tickIdle tickHi tickLo tickGap loadByte; repeat' (first | rfl | split)
@[simp] theorem tick_script (s : State) : (tick s).script = s.script := by
  unfold tick tickIdle tickHi tickLo tickGap loadByte; repeat' (first | rfl | split)
@[simp] theorem tick_trace (s : State) : (tick s).trace = s.trace := by
  unfold tick tickIdle tickHi tickLo tickGap loadByte; repeat' (first | rfl | split)
@[simp] theorem tick_draws (s : State) : (tick s).draws = s.draws := by
  unfold tick tickIdle tickHi tickLo tickGap loadByte; repeat' (first | rfl | split)

@[simp] theorem qdecStep_txq (x : Sample) (s : State) : (qdecStep x s).txq = s.txq := by
  rcases qdecStep_cases x s with ⟨_, h⟩ | ⟨_, _, h⟩ <;> simp [h]
@[simp] theorem qdecStep_sr (x : Sample) (s : State) : (qdecStep x s).sr = s.sr := by
  rcases qdecStep_cases x s with ⟨_, h⟩ | ⟨_, _, h⟩ <;> simp [h]
@[simp] theorem qdecStep_nb (x : Sample) (s : State) : (qdecStep x s).nb = s.nb := by
  rcases qdecStep_cases x s with ⟨_, h⟩ | ⟨_, _, h⟩ <;> simp [h]
@[simp] theorem qdecStep_ph (x : Sample) (s : State) : (qdecStep x s).ph = s.ph := by
  rcases qdecStep_cases x s with ⟨_, h⟩ | ⟨_, _, h⟩ <;> simp [h]
@[simp] theorem qdecStep_np (x : Sample) (s : State) : (qdecStep x s).np = s.np := by
  rcases qdecStep_cases x s with ⟨_, h⟩ | ⟨_, _, h⟩ <;> simp [h]
@[simp] theorem qdecStep_tmr (x : Sample) (s : State) : (qdecStep x s).tmr = s.tmr := by
  rcases qdecStep_cases x s with ⟨_, h⟩ | ⟨_, _, h⟩ <;> simp [h]
@[simp] theorem qdecStep_divcnt (x : Sample) (s : State) : (qdecStep x s).divcnt = s.divcnt := by
  rcases qdecStep_cases x s with ⟨_, h⟩ | ⟨_, _, h⟩ <;> simp [h]
@[simp] theorem qdecStep_phase (x : Sample) (s : State) : (qdecStep x s).phase = s.phase := by
  rcases qdecStep_cases x s with ⟨_, h⟩ | ⟨_, _, h⟩ <;> simp [h]
@[simp] theorem qdecStep_acc (x : Sample) (s : State) : (qdecStep x s).acc = s.acc := by
  rcases qdecStep_cases x s with ⟨_, h⟩ | ⟨_, _, h⟩ <;> simp [h]
@[simp] theorem qdecStep_cnt (x : Sample) (s : State) : (qdecStep x s).cnt = s.cnt := by
  rcases qdecStep_cases x s with ⟨_, h⟩ | ⟨_, _, h⟩ <;> simp [h]
@[simp] theorem qdecStep_rptr (x : Sample) (s : State) : (qdecStep x s).rptr = s.rptr := by
  rcases qdecStep_cases x s with ⟨_, h⟩ | ⟨_, _, h⟩ <;> simp [h]
@[simp] theorem qdecStep_rptrP (x : Sample) (s : State) : (qdecStep x s).rptrP = s.rptrP := by
  rcases qdecStep_cases x s with ⟨_, h⟩ | ⟨_, _, h⟩ <;> simp [h]
@[simp] theorem qdecStep_wptrC (x : Sample) (s : State) : (qdecStep x s).wptrC = s.wptrC := by
  rcases qdecStep_cases x s with ⟨_, h⟩ | ⟨_, _, h⟩ <;> simp [h]
@[simp] theorem qdecStep_rptrPast (x : Sample) (s : State) : (qdecStep x s).rptrPast = s.rptrPast := by
  rcases qdecStep_cases x s with ⟨_, h⟩ | ⟨_, _, h⟩ <;> simp [h]
@[simp] theorem qdecStep_wptrPast (x : Sample) (s : State) : (qdecStep x s).wptrPast = s.wptrPast := by
  rcases qdecStep_cases x s with ⟨_, h⟩ | ⟨_, _, h⟩ <;> simp [h]
@[simp] theorem qdecStep_cfg (x : Sample) (s : State) : (qdecStep x s).cfg = s.cfg := by
  rcases qdecStep_cases x s with ⟨_, h⟩ | ⟨_, _, h⟩ <;> simp [h]
@[simp] theorem qdecStep_host (x : Sample) (s : State) : (qdecStep x s).host = s.host := by
  rcases qdecStep_cases x s with ⟨_, h⟩ | ⟨_, _, h⟩ <;> simp [h]
@[simp] theorem qdecStep_lines (x : Sample) (s : State) : (qdecStep x s).lines = s.lines := by
  rcases qdecStep_cases x s with ⟨_, h⟩ | ⟨_, _, h⟩ <;> simp [h]
@[simp] theorem qdecStep_script (x : Sample) (s : State) : (qdecStep x s).script = s.script := by
  rcases qdecStep_cases x s with ⟨_, h⟩ | ⟨_, _, h⟩ <;> simp [h]
@[simp] theorem qdecStep_trace (x : Sample) (s : State) : (qdecStep x s).trace = s.trace := by
  rcases qdecStep_cases x s with ⟨_, h⟩ | ⟨_, _, h⟩ <;> simp [h]
@[simp] theorem qdecStep_draws (x : Sample) (s : State) : (qdecStep x s).draws = s.draws := by
  rcases qdecStep_cases x s with ⟨_, h⟩ | ⟨_, _, h⟩ <;> simp [h]

@[simp] theorem debounce_txq (level : Bool) (s : State) : (debounce level s).txq = s.txq := by
  rcases debounce_cases level s with ⟨_, h⟩ | ⟨_, _, h⟩ | ⟨_, _, h⟩ | ⟨_, _, _, h⟩ <;> simp [h]
@[simp] theorem debounce_sr (level : Bool) (s : State) : (debounce level s).sr = s.sr := by
  rcases debounce_cases level s with ⟨_, h⟩ | ⟨_, _, h⟩ | ⟨_, _, h⟩ | ⟨_, _, _, h⟩ <;> simp [h]
@[simp] theorem debounce_nb (level : Bool) (s : State) : (debounce level s).nb = s.nb := by
  rcases debounce_cases level s with ⟨_, h⟩ | ⟨_, _, h⟩ | ⟨_, _, h⟩ | ⟨_, _, _, h⟩ <;> simp [h]
@[simp] theorem debounce_ph (level : Bool) (s : State) : (debounce level s).ph = s.ph := by
  rcases debounce_cases level s with ⟨_, h⟩ | ⟨_, _, h⟩ | ⟨_, _, h⟩ | ⟨_, _, _, h⟩ <;> simp [h]
@[simp] theorem debounce_np (level : Bool) (s : State) : (debounce level s).np = s.np := by
  rcases debounce_cases level s with ⟨_, h⟩ | ⟨_, _, h⟩ | ⟨_, _, h⟩ | ⟨_, _, _, h⟩ <;> simp [h]
@[simp] theorem debounce_tmr (level : Bool) (s : State) : (debounce level s).tmr = s.tmr := by
  rcases debounce_cases level s with ⟨_, h⟩ | ⟨_, _, h⟩ | ⟨_, _, h⟩ | ⟨_, _, _, h⟩ <;> simp [h]
@[simp] theorem debounce_divcnt (level : Bool) (s : State) : (debounce level s).divcnt = s.divcnt := by
  rcases debounce_cases level s with ⟨_, h⟩ | ⟨_, _, h⟩ | ⟨_, _, h⟩ | ⟨_, _, _, h⟩ <;> simp [h]
@[simp] theorem debounce_phase (level : Bool) (s : State) : (debounce level s).phase = s.phase := by
  rcases debounce_cases level s with ⟨_, h⟩ | ⟨_, _, h⟩ | ⟨_, _, h⟩ | ⟨_, _, _, h⟩ <;> simp [h]
@[simp] theorem debounce_smpq (level : Bool) (s : State) : (debounce level s).smpq = s.smpq := by
  rcases debounce_cases level s with ⟨_, h⟩ | ⟨_, _, h⟩ | ⟨_, _, h⟩ | ⟨_, _, _, h⟩ <;> simp [h]
@[simp] theorem debounce_lastSample (level : Bool) (s : State) : (debounce level s).lastSample = s.lastSample := by
  rcases debounce_cases level s with ⟨_, h⟩ | ⟨_, _, h⟩ | ⟨_, _, h⟩ | ⟨_, _, _, h⟩ <;> simp [h]
@[simp] theorem debounce_rptr (level : Bool) (s : State) : (debounce level s).rptr = s.rptr := by
  rcases debounce_cases level s with ⟨_, h⟩ | ⟨_, _, h⟩ | ⟨_, _, h⟩ | ⟨_, _, _, h⟩ <;> simp [h]
@[simp] theorem debounce_rptrP (level : Bool) (s : State) : (debounce level s).rptrP = s.rptrP := by
  rcases debounce_cases level s with ⟨_, h⟩ | ⟨_, _, h⟩ | ⟨_, _, h⟩ | ⟨_, _, _, h⟩ <;> simp [h]
@[simp] theorem debounce_wptrC (level : Bool) (s : State) : (debounce level s).wptrC = s.wptrC := by
  rcases debounce_cases level s with ⟨_, h⟩ | ⟨_, _, h⟩ | ⟨_, _, h⟩ | ⟨_, _, _, h⟩ <;> simp [h]
@[simp] theorem debounce_rptrPast (level : Bool) (s : State) : (debounce level s).rptrPast = s.rptrPast := by
  rcases debounce_cases level s with ⟨_, h⟩ | ⟨_, _, h⟩ | ⟨_, _, h⟩ | ⟨_, _, _, h⟩ <;> simp [h]
@[simp] theorem debounce_wptrPast (level : Bool) (s : State) : (debounce level s).wptrPast = s.wptrPast := by
  rcases debounce_cases level s with ⟨_, h⟩ | ⟨_, _, h⟩ | ⟨_, _, h⟩ | ⟨_, _, _, h⟩ <;> simp [h]
@[simp] theorem debounce_cfg (level : Bool) (s : State) : (debounce level s).cfg = s.cfg := by
  rcases debounce_cases level s with ⟨_, h⟩ | ⟨_, _, h⟩ | ⟨_, _, h⟩ | ⟨_, _, _, h⟩ <;> simp [h]
@[simp] theorem debounce_host (level : Bool) (s : State) : (debounce level s).host = s.host := by
  rcases debounce_cases level s with ⟨_, h⟩ | ⟨_, _, h⟩ | ⟨_, _, h⟩ | ⟨_, _, _, h⟩ <;> simp [h]
@[simp] theorem debounce_lines (level : Bool) (s : State) : (debounce level s).lines = s.lines := by
  rcases debounce_cases level s with ⟨_, h⟩ | ⟨_, _, h⟩ | ⟨_, _, h⟩ | ⟨_, _, _, h⟩ <;> simp [h]
@[simp] theorem debounce_script (level : Bool) (s : State) : (debounce level s).script = s.script := by
  rcases debounce_cases level s with ⟨_, h⟩ | ⟨_, _, h⟩ | ⟨_, _, h⟩ | ⟨_, _, _, h⟩ <;> simp [h]
@[simp] theorem debounce_trace (level : Bool) (s : State) : (debounce level s).trace = s.trace := by
  rcases debounce_cases level s with ⟨_, h⟩ | ⟨_, _, h⟩ | ⟨_, _, h⟩ | ⟨_, _, _, h⟩ <;> simp [h]
@[simp] theorem debounce_draws (level : Bool) (s : State) : (debounce level s).draws = s.draws := by
  rcases debounce_cases level s with ⟨_, h⟩ | ⟨_, _, h⟩ | ⟨_, _, h⟩ | ⟨_, _, _, h⟩ <;> simp [h]

/-! ### Steps -/

/-- A step on a state that lists a slot runs that slot (log 1). -/
theorem step_of_script {s : State} {x : Config.Slot} {rest : List Config.Slot} (hl : s.cfg.Legal)
    (hs : s.script = x :: rest) : step s = runSlot x { s with script := rest } := by
  unfold step runStep nextSlot
  rw [if_pos hl, hs]

/-- A step on a state that lists none runs the environment's next slot (log 2). -/
theorem step_of_empty_script {s : State} (hl : s.cfg.Legal) (hs : s.script = []) :
    step s = runSlot (Config.environment s.draws) { s with draws := s.draws + 1 } := by
  unfold step runStep nextSlot
  rw [if_pos hl, hs]

end Sys2Proof.Machine
end

