-- ==== Sys2Proof/Laws/Cursors.lean ====
section
/-! SUPPORT. Arithmetic of the cursors of the event ring (R118): distances modulo 64 and slot indices. Proofs about the
queue should use these and `omega`, and never unfold `cursorDistance`. -/

namespace Sys2Proof.Machine

theorem cursorDistance_lt (a b : Cursor) : cursorDistance a b < 64 := (b - a).isLt

/-- Distances add up, modulo 64. -/
theorem cursorDistance_trans (a b c : Cursor) :
    cursorDistance a c = (cursorDistance a b + cursorDistance b c) % 64 := by
  change (c - a).toNat = ((b - a).toNat + (c - b).toNat) % 2 ^ Config.document.evqPtrW
  rw [← BitVec.toNat_add]
  congr 1
  ring

theorem cursorDistance_succ (a : Cursor) : cursorDistance a (a + 1) = 1 := by
  unfold cursorDistance
  rw [show a + 1 - a = 1 by ring]
  rfl

theorem cursorDistance_succ_left (a : Cursor) : cursorDistance (a + 1) a = 63 := by
  unfold cursorDistance
  rw [show a - (a + 1) = -1 by ring]
  rfl

theorem cursorDistance_add (a : Cursor) (k : Nat) (h : k < 64) : cursorDistance a (a + BitVec.ofNat Config.document.evqPtrW k) = k := by
  unfold cursorDistance
  rw [show a + BitVec.ofNat _ k - a = BitVec.ofNat _ k by ring, BitVec.toNat_ofNat]
  exact Nat.mod_eq_of_lt h

/-- A cursor is another one moved by the distance between them. -/
theorem add_cursorDistance (a b : Cursor) : a + BitVec.ofNat Config.document.evqPtrW (cursorDistance a b) = b := by
  unfold cursorDistance
  rw [BitVec.ofNat_toNat, BitVec.setWidth_eq]
  ring

/-- Two cursors less than 32 apart stand for different slots. -/
theorem slotIndex_sub_ne (a : Cursor) (k : Nat) (h : 1 ≤ k) (h' : k < 32) :
    slotIndex a ≠ slotIndex (a - BitVec.ofNat Config.document.evqPtrW k) := by
  rw [slotIndex_eq, slotIndex_eq, BitVec.toNat_sub, BitVec.toNat_ofNat]
  have : a.toNat < 64 := a.isLt
  change a.toNat % 32 ≠ (64 - k % 64 + a.toNat) % 64 % 32
  omega

/-- The capacity in numbers, for `omega`. -/
theorem evqCap_le {s : State} (h : QueueInv s) : s.cfg.source.evqCap ≤ 32 := h.cap

/-- No event has the code `0b00` (R65). -/
theorem KeyEvent_code_ne_zero (e : KeyEvent) : e.code ≠ 0b00#2 := by cases e <;> decide

end Sys2Proof.Machine
end

