-- ==== Sys2Proof/Laws/Host.lean ====
section
/-! SUPPORT. The host procedures, once, with everything they can do: reading the image, VALIDATE, SEND, the turn of HOST,
and two operations in one cycle. -/

namespace Sys2Proof.Machine

/-! ### Reading the image (R46, R68) -/

theorem memRead_one {buf : List Byte} {k : Nat} (h : k < buf.length) : memRead buf k 1 = buf[k].toNat := by
  unfold memRead
  rw [List.drop_eq_getElem_cons h]
  simp only [List.take_succ_cons, List.take_zero, List.foldr_cons, List.foldr_nil]
  omega

theorem memRead_two {buf : List Byte} {k : Nat} (h : k + 1 < buf.length) :
    memRead buf k 2 = buf[k].toNat + 256 * buf[k + 1].toNat := by
  unfold memRead
  rw [List.drop_eq_getElem_cons (by omega), List.drop_eq_getElem_cons h]
  simp only [List.take_succ_cons, List.take_zero, List.foldr_cons, List.foldr_nil]
  omega

theorem effectiveLength_eq {p : Config.Params} {buf : List Byte} (hp : p.source = Config.document) (h : 12 < buf.length) :
    effectiveLength p buf = (buf[11].toNat : Int) + (256 : Int) * (buf[12].toNat : Int) - 0x4009 := by
  unfold effectiveLength
  rw [hp, show Config.document.ptrOff = 11 from rfl, memRead_two h]
  push_cast
  rfl

/-- The five checks of R126 with their literals. -/
theorem validateImage_eq {p : Config.Params} (hp : p.source = Config.document) (buf : List Byte) (n : Nat) :
    validateImage p buf n =
    if n ≤ 120 then .error .tooShort
    else if memRead buf 0 1 ≠ 0 then .error .badMarker
    else if effectiveLength p buf ≤ 0 then .error .lengthMismatch
    else if (n : Int) < effectiveLength p buf then .error .lengthMismatch
    else if memRead buf ((effectiveLength p buf).toNat - 1) 1 ≠ 0x80 then .error .missingTerminator
    else .ok (effectiveLength p buf).toNat := by
  unfold validateImage
  rw [hp]

/-- When VALIDATE accepts (R129). -/
theorem validateImage_eq_ok_iff {p : Config.Params} (hp : p.source = Config.document) (buf : List Byte) (n L : Nat) :
    validateImage p buf n = .ok L ↔
      120 < n ∧ memRead buf 0 1 = 0 ∧ 1 ≤ L ∧ L ≤ n ∧ effectiveLength p buf = L ∧ memRead buf (L - 1) 1 = 0x80 := by
  rw [validateImage_eq hp]
  by_cases h₁ : n ≤ 120
  · rw [if_pos h₁]; constructor
    · intro h; cases h
    · intro h; omega
  by_cases h₂ : memRead buf 0 1 = 0
  swap
  · rw [if_neg h₁, if_pos h₂]; constructor
    · intro h; cases h
    · intro h; exact absurd h.2.1 h₂
  by_cases h₃ : effectiveLength p buf ≤ 0
  · rw [if_neg h₁, if_neg (not_not.2 h₂), if_pos h₃]; constructor
    · intro h; cases h
    · intro h; omega
  by_cases h₄ : (n : Int) < effectiveLength p buf
  · rw [if_neg h₁, if_neg (not_not.2 h₂), if_neg h₃, if_pos h₄]; constructor
    · intro h; cases h
    · intro h; omega
  rw [if_neg h₁, if_neg (not_not.2 h₂), if_neg h₃, if_neg h₄]
  by_cases h₅ : memRead buf ((effectiveLength p buf).toNat - 1) 1 = 0x80
  · rw [if_neg (not_not.2 h₅)]; constructor
    · intro h
      cases h
      exact ⟨by omega, h₂, by omega, by omega, by omega, h₅⟩
    · intro h; congr 1; omega
  · rw [if_pos h₅]; constructor
    · intro h; cases h
    · rintro ⟨_, _, _, _, h, h'⟩
      rw [show (effectiveLength p buf).toNat = L by omega] at h₅
      exact absurd h' h₅

/-! ### ENQUEUE, DRAIN_WAIT, SEND -/

/-- Everything ENQUEUE can do. -/
theorem execEnqueue_cases (d : Byte) (s : State) :
    ((s.host = .idle ∨ s.host = .enqueue d) ∧ execEnqueue d s = .next (presentByte d s)) ∨
    (s.host = .drain ∧ execEnqueue d s = .next s) ∨
    (s.host ≠ .idle ∧ s.host ≠ .drain ∧ s.host ≠ .enqueue d ∧ execEnqueue d s = .refused .hostBusy) := by
  unfold execEnqueue
  cases h : s.host <;> simp
  exact em _

/-- Everything DRAIN_WAIT can do. -/
theorem execDrainWait_cases (s : State) :
    ((s.host = .idle ∨ s.host = .drain) ∧ txBusy s = false ∧ execDrainWait s = .next (drainReturns s)) ∨
    ((s.host = .idle ∨ s.host = .drain) ∧ txBusy s = true ∧ execDrainWait s = .next { s with host := .drain }) ∨
    (s.host ≠ .idle ∧ s.host ≠ .drain ∧ execDrainWait s = .next s) := by
  unfold execDrainWait
  cases hb : txBusy s <;> cases h : s.host <;> simp

/-- Everything IS_DRAINING can do. -/
theorem execIsDraining_cases (s : State) :
    ((s.host = .idle ∨ s.host = .drain ∨ s.host = .sendDrain) ∧
      execIsDraining s = .next (observe (.busy (txBusy s)) s)) ∨
    (s.host ≠ .idle ∧ s.host ≠ .drain ∧ s.host ≠ .sendDrain ∧ execIsDraining s = .next s) := by
  unfold execIsDraining
  cases h : s.host <;> simp

/-- Everything an operation that HOST performs between its procedures can do. -/
theorem whenHostFree_cases (s : State) (a : Answer) :
    (s.host = .idle ∧ whenHostFree s a = a) ∨ (s.host ≠ .idle ∧ whenHostFree s a = .next s) := by
  by_cases h : s.host = .idle
  · exact .inl ⟨h, if_pos h⟩
  · exact .inr ⟨h, if_neg h⟩

/-- Everything VALIDATE can do. -/
theorem execValidate_cases (buf : List Byte) (n : Nat) (s : State) :
    (¬ ImageOk s.cfg buf n ∧ execValidate buf n s = .refused .imagePrecondition) ∨
    (ImageOk s.cfg buf n ∧ s.host ≠ .idle ∧ execValidate buf n s = .next s) ∨
    (ImageOk s.cfg buf n ∧ s.host = .idle ∧
      execValidate buf n s = .next (observe (.validated (validateResult s.cfg buf n)) s)) := by
  unfold execValidate
  by_cases h : ImageOk s.cfg buf n
  · rw [if_neg (not_not.2 h)]
    rcases whenHostFree_cases s (.next (observe (.validated (validateResult s.cfg buf n)) s)) with ⟨hi, e⟩ | ⟨hi, e⟩
    · exact .inr (.inr ⟨h, hi, e⟩)
    · exact .inr (.inl ⟨h, hi, e⟩)
  · exact .inl ⟨h, if_pos h⟩

/-- Everything the start of SEND can do. -/
theorem beginSend_cases (name buf : List Byte) (n : Nat) (s : State) :
    (∃ c, validateImage s.cfg buf n = .error c ∧
      beginSend name buf n s = { s with trace := s.trace ++ [.sent (.raised (.invalidImage c))] }) ∨
    (∃ L, validateImage s.cfg buf n = .ok L ∧
      beginSend name buf n s = { s with host := .settle s.cfg.tSettle name (buf.take L) }) := by
  unfold beginSend
  cases h : validateImage s.cfg buf n with
  | error c => exact .inl ⟨c, rfl, rfl⟩
  | ok L => exact .inr ⟨L, rfl, rfl⟩

/-- Everything SEND can do. -/
theorem execSend_cases (name buf : List Byte) (n : Nat) (s : State) :
    (¬ ImageOk s.cfg buf n ∧ execSend name buf n s = .refused .imagePrecondition) ∨
    (ImageOk s.cfg buf n ∧ ¬ NameOk name ∧ execSend name buf n s = .refused .nameWithoutEndMarker) ∨
    (ImageOk s.cfg buf n ∧ NameOk name ∧ s.host = .drain ∧ execSend name buf n s = .next s) ∨
    (ImageOk s.cfg buf n ∧ NameOk name ∧ s.host ≠ .idle ∧ s.host ≠ .drain ∧
      execSend name buf n s = .refused .hostBusy) ∨
    (ImageOk s.cfg buf n ∧ NameOk name ∧ s.host = .idle ∧ execSend name buf n s = .next (beginSend name buf n s)) := by
  by_cases h₁ : ImageOk s.cfg buf n
  swap
  · exact .inl ⟨h₁, if_pos h₁⟩
  by_cases h₂ : NameOk name
  swap
  · exact .inr (.inl ⟨h₁, h₂, by unfold execSend; rw [if_neg (not_not.2 h₁), if_pos h₂]⟩)
  by_cases hi : s.host = .idle
  · exact .inr (.inr (.inr (.inr
      ⟨h₁, h₂, hi, by unfold execSend; rw [if_neg (not_not.2 h₁), if_neg (not_not.2 h₂), hi]⟩)))
  by_cases hd : s.host = .drain
  · exact .inr (.inr (.inl ⟨h₁, h₂, hd, by unfold execSend; rw [if_neg (not_not.2 h₁), if_neg (not_not.2 h₂), hd]⟩))
  · refine .inr (.inr (.inr (.inl ⟨h₁, h₂, hi, hd, ?_⟩)))
    unfold execSend
    rw [if_neg (not_not.2 h₁), if_neg (not_not.2 h₂)]
    cases hs : s.host <;> first | exact absurd hs hi | exact absurd hs hd | rfl

/-! ### A turn of HOST -/

/-- Everything a report can do (R133). -/
theorem reportProgress_cases (k len : Nat) (s : State) :
    ((k + 1) % s.cfg.source.progressStep = 0 ∧
      reportProgress k len s = { s with trace := s.trace ++ [.progress (100 * (k + 1) / len)] }) ∨
    ((k + 1) % s.cfg.source.progressStep ≠ 0 ∧ reportProgress k len s = s) := by
  by_cases h : (k + 1) % s.cfg.source.progressStep = 0
  · exact .inl ⟨h, if_pos h⟩
  · exact .inr ⟨h, if_neg h⟩

theorem hostTurn_idle {s : State} (h : s.host = .idle) : hostTurn s = .next s := by
  simp [hostTurn, h]

theorem hostTurn_enqueue {s : State} {d : Byte} (h : s.host = .enqueue d) :
    hostTurn s = .next (presentByte d s) := by
  simp [hostTurn, h]

theorem hostTurn_drain {s : State} (h : s.host = .drain) :
    hostTurn s = .next (if txBusy s then s else drainReturns s) := by
  simp [hostTurn, h]

theorem hostTurn_settle {s : State} {left : Nat} {name payload : List Byte} (h : s.host = .settle left name payload) :
    hostTurn s = .next
      { s with host := if 1 < left then .settle (left - 1) name payload else .sendName name payload } := by
  simp [hostTurn, h]

theorem hostTurn_sendName_nil {s : State} {payload : List Byte} (h : s.host = .sendName [] payload) :
    hostTurn s = .refused .nameWithoutEndMarker := by
  simp [hostTurn, h]

theorem hostTurn_sendName_cons {s : State} {b : Byte} {rest payload : List Byte}
    (h : s.host = .sendName (b :: rest) payload) :
    hostTurn s = .next
      (if txFull s then s else acceptByte b { s with host := afterNameByte b rest payload }) := by
  simp only [hostTurn, h]

theorem hostTurn_sendPayload_nil {s : State} {k len : Nat} (h : s.host = .sendPayload [] k len) :
    hostTurn s = .next { s with host := .sendDrain } := by
  simp [hostTurn, h]

theorem hostTurn_sendPayload_cons {s : State} {b : Byte} {rest : List Byte} {k len : Nat}
    (h : s.host = .sendPayload (b :: rest) k len) :
    hostTurn s = .next (if txFull s then s
      else reportProgress k len (acceptByte b { s with host := afterPayloadByte rest k len })) := by
  simp only [hostTurn, h]

theorem hostTurn_sendDrain {s : State} (h : s.host = .sendDrain) :
    hostTurn s = .next (if txBusy s then s else sendCompletes s) := by
  simp [hostTurn, h]

/-! ### What is still to be sent, and what has been (R130, R132) -/

theorem sentName_cons (b : Byte) (rest : List Byte) :
    sentName (b :: rest) = b :: if b.msb then [] else sentName rest := by
  simp only [sentName]
  split <;> rfl

theorem bytesToSend_afterNameByte (b : Byte) (rest payload : List Byte) :
    bytesToSend (afterNameByte b rest payload) = (if b.msb then [] else sentName rest) ++ payload := by
  unfold afterNameByte
  split <;> rfl

theorem bytesToSend_afterPayloadByte (rest : List Byte) (k len : Nat) :
    bytesToSend (afterPayloadByte rest k len) = rest := by
  unfold afterPayloadByte
  split
  · subst_vars; rfl
  · rfl

@[simp] theorem acceptedBytes_append (a b : List Observation) :
    acceptedBytes (a ++ b) = acceptedBytes a ++ acceptedBytes b := List.filterMap_append

@[simp] theorem progressReports_append (a b : List Observation) :
    progressReports (a ++ b) = progressReports a ++ progressReports b := List.filterMap_append

/-! ### Two operations of one cycle, and a clock cycle (R52, R18) -/

theorem divWraps_iff (s : State) : divWraps s = true ↔ s.cfg.div ≤ s.divcnt + 1 := by
  simp [divWraps]

/-- What each word of the sample port does (R73). -/
theorem exec_decodeSmp (x : Sample) (s : State) : exec (decodeSmp x) s = .next (qdecStep x s) := by
  have h : ∀ k : Fin 16, exec (decodeSmp (BitVec.ofFin k)) s = .next (qdecStep (BitVec.ofFin k) s) := by
    intro k
    fin_cases k <;> rfl
  exact h x.toFin

theorem perform_smp (x : Sample) (s : State) : perform (actionOfWord (.smp x)) s = .next (qdecStep x s) :=
  exec_decodeSmp x s

/-- Two operations of one cycle are the two in one of the two orders. -/
theorem performBoth_cases (r₁ r₂ : Config.Request) (s : State) :
    ∃ n, performBoth r₁ r₂ s = andThen (performRequest r₁ { s with draws := n }) (performRequest r₂) ∨
      performBoth r₁ r₂ s = andThen (performRequest r₂ { s with draws := n }) (performRequest r₁) := by
  unfold performBoth
  dsimp only
  cases hd : drawsOrder (resolve r₁ s) (resolve r₂ s) s
  · refine ⟨s.draws, ?_⟩
    cases hg : goesFirst (resolve r₁ s) (resolve r₂ s) s
    · exact .inr rfl
    · exact .inl rfl
  · refine ⟨s.draws + 1, ?_⟩
    cases hg : goesFirst (resolve r₁ s) (resolve r₂ s) s
    · exact .inr rfl
    · exact .inl rfl

/-- Everything a clock cycle can do (R18). -/
theorem clockCycle_cases (r : Config.Request) (tickFirst : Bool) (s : State) :
    (s.cfg.div ≤ s.divcnt + 1 ∧
      (r = tickRequest ∧ clockCycle r tickFirst s = performRequest tickRequest { s with divcnt := 0 } ∨
        r ≠ tickRequest ∧ clockCycle r tickFirst s =
          if tickFirst then performBoth tickRequest r { s with divcnt := 0 }
          else performBoth r tickRequest { s with divcnt := 0 })) ∨
    (s.divcnt + 1 < s.cfg.div ∧
      (r = tickRequest ∧ clockCycle r tickFirst s = .next { s with divcnt := s.divcnt + 1 } ∨
        r ≠ tickRequest ∧ clockCycle r tickFirst s = performRequest r { s with divcnt := s.divcnt + 1 })) := by
  cases h : divWraps s
  · have h' : ¬ s.cfg.div ≤ s.divcnt + 1 := fun c => by rw [(divWraps_iff s).2 c] at h; cases h
    refine .inr ⟨Nat.lt_of_not_le h', ?_⟩
    by_cases hr : r = tickRequest
    · exact .inl ⟨hr, by simp [clockCycle, countCycle, h, hr]⟩
    · exact .inr ⟨hr, by simp [clockCycle, countCycle, h, hr]⟩
  · refine .inl ⟨(divWraps_iff s).1 h, ?_⟩
    by_cases hr : r = tickRequest
    · exact .inl ⟨hr, by simp [clockCycle, countCycle, h, hr]⟩
    · exact .inr ⟨hr, by simp [clockCycle, countCycle, h, hr]⟩

end Sys2Proof.Machine
end

