-- ==== Sys2Proof/Laws/PerInstr.lean ====
section
/-! SUPPORT. Per operation: the word that selects it travels on a port that its agent drives (R6, R60, R72). -/

namespace Sys2Proof.Laws.EncodedPort

open Sys2Proof.Machine

/-- The agents that put words on a port (R6, R10): the publish path is driven by the two producers. -/
def drivers : PortWord → List Agent
  | .txw _ | .txBusy | .drainWait | .popw _ | .validate _ _ | .send _ _ _ => [.host]
  | .pulse _ => [.pte]
  | .phv _ => [.sampler]
  | .smp _ => [.qdec]
  | .dbw _ => [.deb]
  | .evc _ => [.qdec, .deb]
  | .syncR | .syncW => [.synchroniser]
  | .rst _ => [.environment]

/-- The agent of the operation table drives the port on which the encoder puts the word. -/
def Statement (i : Instr) : Prop := agentOf i ∈ drivers (encode i)

theorem enqueue (d : Byte) : Statement (.enqueue d) := .head _
theorem txNoreq (x : Byte) : Statement (.txNoreq x) := .head _
theorem isDraining : Statement .isDraining := .head _
theorem drainWait : Statement .drainWait := .head _
theorem pteTick : Statement .pteTick := .head _
theorem smpCapture (a b : Bool) : Statement (.smpCapture a b) := .head _
theorem qdecNone0 : Statement .qdecNone0 := .head _
theorem qdecNone1 : Statement .qdecNone1 := .head _
theorem qdecNone2 : Statement .qdecNone2 := .head _
theorem qdecNone3 : Statement .qdecNone3 := .head _
theorem qdecIncrease : Statement .qdecIncrease := .head _
theorem qdecNone5 : Statement .qdecNone5 := .head _
theorem qdecNone6 : Statement .qdecNone6 := .head _
theorem qdecNone7 : Statement .qdecNone7 := .head _
theorem qdecNone8 : Statement .qdecNone8 := .head _
theorem qdecNone9 : Statement .qdecNone9 := .head _
theorem qdecNoneA : Statement .qdecNoneA := .head _
theorem qdecDecrease : Statement .qdecDecrease := .head _
theorem qdecNoneC : Statement .qdecNoneC := .head _
theorem qdecNoneD : Statement .qdecNoneD := .head _
theorem qdecNoneE : Statement .qdecNoneE := .head _
theorem qdecNoneF : Statement .qdecNoneF := .head _
theorem debTick (s : Bool) : Statement (.debTick s) := .head _
theorem debNotick (x : Bool) : Statement (.debNotick x) := .head _
theorem publishUp : Statement .publishUp := .head _
theorem publishDown : Statement .publishDown := .head _
theorem publishEnter : Statement .publishEnter := .tail _ (.head _)
theorem poll : Statement .poll := .head _
theorem noPoll : Statement .noPoll := .head _
theorem syncR : Statement .syncR := .head _
theorem syncW : Statement .syncW := .head _
theorem validate (buf : List Byte) (n : Nat) : Statement (.validate buf n) := .head _
theorem send (name buf : List Byte) (n : Nat) : Statement (.send name buf n) := .head _
theorem reset : Statement .reset := .head _

end Sys2Proof.Laws.EncodedPort
end

