-- ==== Sys2Proof/Tests/Slice0.lean ====
section
/-! SUPPORT. Tests of one step each, with expected values from `95_test_vectors.md`, and for every obligation with
hypotheses a witness that meets them. -/

namespace Sys2Proof.Tests

open Sys2Proof.Machine

/-! ### Small states -/

/-- The toy parameters of `95_test_vectors.md`. -/
def toy : Config.Params :=
  { Config.reference with txqDepth := 2, n0 := 1, n1 := 2, tHi := 1, tLo := 1, tGap := 2 }

/-- The reset state with the toy parameters. -/
def base : State := { State.reset with cfg := toy }

/-- The engine in the middle of `0xA5`, after tick `k` of V1. -/
def engine (sr : Byte) (nb : BitVec 4) (np : Nat) (ph : PtePhase) (tmr : Nat) : State :=
  { base with sr := sr, nb := nb, np := np, ph := ph, tmr := tmr }

/-- Every slot holds UP, with the cursors given. -/
def ring (wptr rptr : Cursor) : State :=
  { base with slot := Vector.replicate 32 0b01#2, wptr := wptr, rptr := rptr }

/-- With lagging cursors (R123). -/
def lagging (wptr rptr rptrP wptrC : Cursor) : State :=
  { ring wptr rptr with cfg := { toy with evqLag := 1 }, rptrP := rptrP, wptrC := wptrC }

/-- An image of 121 bytes, `0x55` where nothing is said (rows 4 to 8, 18 of V24). -/
def image (marker second lo hi last : Byte) : List Byte :=
  marker :: second :: (List.replicate 9 0x55#8 ++ lo :: hi :: (List.replicate 107 0x55#8 ++ [last]))

/-- Row 4 of V24: accepted, 121. -/
def good : List Byte := image 0x00 0x55 0x82 0x40 0x80

/-- Like row 18 of V24, with 121 bytes: accepted, 2. -/
def short : List Byte := image 0x00 0x80 0x0B 0x40 0x55

/-- The next state of an answer, `base` where there is none. -/
def nextOf (a : Answer) : State :=
  match a with
  | .next s => s
  | .fault _ | .refused _ => base

/-- The step on the word `w` put as the next slot of `s`. -/
def run (w : PortWord) (s : State) : State := nextOf (step { s with script := [.one (.word w)] })

/-- The state after a tick that shows `level`. -/
def showing (level : Bool) (s : State) : State := { s with trace := [.out level] }

/-! ### WellFormed refuses each kind of ill-formed operand -/

set_option maxRecDepth 8000 in
theorem test_wf_ok : (Instr.send [0x2D#8, 0x90#8] good 121).wellFormed toy = true := by decide
set_option maxRecDepth 8000 in
theorem test_wf_filled_length_over_buffer : (Instr.validate good 122).wellFormed toy = false := by decide
set_option maxRecDepth 8000 in
theorem test_wf_filled_length_over_max : (Instr.validate good 16385).wellFormed toy = false := by decide
set_option maxRecDepth 8000 in
theorem test_wf_send_length_over_buffer : (Instr.send [0x90#8] good 122).wellFormed toy = false := by decide
set_option maxRecDepth 8000 in
theorem test_wf_name_without_marker : (Instr.send [0x2D#8, 0x2E#8] good 121).wellFormed toy = false := by decide
set_option maxRecDepth 8000 in
theorem test_wf_empty_name : (Instr.send [] good 121).wellFormed toy = false := by decide
theorem test_name_marker_last : IsName [0x2D#8, 0x90#8] ∧ ¬ IsName [0x2D#8, 0x90#8, 0x2E#8] := by decide

/-! ### Decoding: a word of each operation, written from R61 to R66 and R73 -/

theorem test_decode_enqueue : decode (.txw 0b110100101#9) = .op (.enqueue 0xA5) := by decide
theorem test_decode_txNoreq : decode (.txw 0b010100101#9) = .op (.txNoreq 0xA5) := by decide
theorem test_decode_isDraining : decode .txBusy = .op .isDraining := by decide
theorem test_decode_drainWait : decode .drainWait = .op .drainWait := by decide
theorem test_decode_pteTick : decode (.pulse 0b1#1) = .op .pteTick := by decide
theorem test_decode_no_pulse : decode (.pulse 0b0#1) = .quiet := by decide
theorem test_decode_smpCapture : decode (.phv 0b10#2) = .op (.smpCapture true false) := by decide
theorem test_decode_smpCapture_b : decode (.phv 0b01#2) = .op (.smpCapture false true) := by decide
theorem test_decode_qdecNone0 : decode (.smp 0b0000#4) = .op .qdecNone0 := by decide
theorem test_decode_qdecNone1 : decode (.smp 0b0001#4) = .op .qdecNone1 := by decide
theorem test_decode_qdecNone2 : decode (.smp 0b0010#4) = .op .qdecNone2 := by decide
theorem test_decode_qdecNone3 : decode (.smp 0b0011#4) = .op .qdecNone3 := by decide
theorem test_decode_qdecIncrease : decode (.smp 0b0100#4) = .op .qdecIncrease := by decide
theorem test_decode_qdecNone5 : decode (.smp 0b0101#4) = .op .qdecNone5 := by decide
theorem test_decode_qdecNone6 : decode (.smp 0b0110#4) = .op .qdecNone6 := by decide
theorem test_decode_qdecNone7 : decode (.smp 0b0111#4) = .op .qdecNone7 := by decide
theorem test_decode_qdecNone8 : decode (.smp 0b1000#4) = .op .qdecNone8 := by decide
theorem test_decode_qdecNone9 : decode (.smp 0b1001#4) = .op .qdecNone9 := by decide
theorem test_decode_qdecNoneA : decode (.smp 0b1010#4) = .op .qdecNoneA := by decide
theorem test_decode_qdecDecrease : decode (.smp 0b1011#4) = .op .qdecDecrease := by decide
theorem test_decode_qdecNoneC : decode (.smp 0b1100#4) = .op .qdecNoneC := by decide
theorem test_decode_qdecNoneD : decode (.smp 0b1101#4) = .op .qdecNoneD := by decide
theorem test_decode_qdecNoneE : decode (.smp 0b1110#4) = .op .qdecNoneE := by decide
theorem test_decode_qdecNoneF : decode (.smp 0b1111#4) = .op .qdecNoneF := by decide
theorem test_decode_debTick : decode (.dbw 0b11#2) = .op (.debTick true) := by decide
theorem test_decode_debTick_released : decode (.dbw 0b10#2) = .op (.debTick false) := by decide
theorem test_decode_debNotick : decode (.dbw 0b01#2) = .op (.debNotick true) := by decide
theorem test_decode_publishUp : decode (.evc 0b01#2) = .op .publishUp := by decide
theorem test_decode_publishDown : decode (.evc 0b10#2) = .op .publishDown := by decide
theorem test_decode_publishEnter : decode (.evc 0b11#2) = .op .publishEnter := by decide
theorem test_decode_none_code : decode (.evc 0b00#2) = .rejected .noneEventCode := by decide
theorem test_decode_poll : decode (.popw 0b1#1) = .op .poll := by decide
theorem test_decode_noPoll : decode (.popw 0b0#1) = .op .noPoll := by decide
theorem test_decode_syncR : decode .syncR = .op .syncR := by decide
theorem test_decode_syncW : decode .syncW = .op .syncW := by decide
theorem test_decode_validate : decode (.validate [0x00#8] 1) = .op (.validate [0x00#8] 1) := by decide
theorem test_decode_send : decode (.send [0x90#8] [0x00#8] 1) = .op (.send [0x90#8] [0x00#8] 1) := by decide
theorem test_decode_reset : decode (.rst 0b1#1) = .op .reset := by decide
theorem test_decode_no_reset : decode (.rst 0b0#1) = .quiet := by decide

/-- The table's own numbers: a one-byte row is a sample, a two-byte row a TXW (log 16). -/
theorem test_table_words :
    decodeTableWord 8 0xB = some .qdecDecrease ∧ decodeTableWord 16 0x1A5 = some (.enqueue 0xA5) ∧
    decodeTableWord 16 0x0A5 = some (.txNoreq 0xA5) ∧ decodeTableWord 8 0x10 = none ∧
    decodeTableWord 16 0x200 = none ∧ decodeTableWord 24 0 = none := by decide

/-- The word placed for the first step after reset is the operation that step runs. -/
theorem test_withFetchWord_sample :
    (nextOf (step (State.reset.withFetchWord 8 0x4))).lastSample = 0x4 ∧
    (nextOf (step (State.reset.withFetchWord 8 0x4))).wptr = 1 := by decide
theorem test_withFetchWord_enqueue : (nextOf (step (State.reset.withFetchWord 16 0x1A5))).txq = [0xA5] := by decide

/-! ### The engine (V1, V5, V6, V8) -/

theorem test_enqueue : (run (.txw 0x1A5#9) base).txq = [0xA5] := by decide
theorem test_enqueue_blocked :
    (run (.txw 0x124#9) { base with txq := [0x81, 0x42] }).txq = [0x81, 0x42] ∧
    (run (.txw 0x124#9) { base with txq := [0x81, 0x42] }).host = .enqueue 0x24 := by decide
theorem test_txNoreq : run (.txw 0x0A5#9) base = base := by decide
theorem test_isDraining_one_low_gap_tick : (run .txBusy (engine 0 0 0 .gap 1)).trace = [.busy true] := by decide
theorem test_isDraining_idle : (run .txBusy base).trace = [.busy false] := by decide
theorem test_drainWait_at_once : (run .drainWait base).trace = [.drained] := by decide
theorem test_drainWait_blocked : (run .drainWait (engine 0 0 0 .lo 1)).host = .drain := by decide

/-- V1, rows ENQ to tick 8 and 38 to 41: one step each. -/
theorem test_pteTick_load : run (.pulse 1#1) { base with txq := [0xA5] } = showing true (engine 0x4A 7 1 .hi 1) := by decide
theorem test_pteTick_hi : run (.pulse 1#1) (engine 0x4A 7 1 .hi 1) = showing false (engine 0x4A 7 1 .lo 1) := by decide
theorem test_pteTick_lo : run (.pulse 1#1) (engine 0x4A 7 1 .lo 1) = showing true (engine 0x4A 7 0 .hi 1) := by decide
theorem test_pteTick_lo_to_gap : run (.pulse 1#1) (engine 0x4A 7 0 .lo 1) = showing false (engine 0x4A 7 0 .gap 2) := by
  decide
theorem test_pteTick_gap : run (.pulse 1#1) (engine 0x4A 7 0 .gap 2) = showing false (engine 0x4A 7 0 .gap 1) := by decide
theorem test_pteTick_gap_to_hi : run (.pulse 1#1) (engine 0x4A 7 0 .gap 1) = showing true (engine 0x94 6 0 .hi 1) := by
  decide
theorem test_pteTick_gap_to_idle : run (.pulse 1#1) (engine 0x00 0 0 .gap 1) = showing false base := by decide

/-- V5: the next byte follows with no extra tick; V8: bit 0 first when MSB_FIRST is false. -/
theorem test_pteTick_next_byte : run (.pulse 1#1) { engine 0x00 0 0 .gap 1 with txq := [0x81, 0x42] } =
    showing true { engine 0x02 7 1 .hi 1 with txq := [0x42] } := by decide
theorem test_pteTick_lsb_first : run (.pulse 1#1) { base with txq := [0x80], cfg := { toy with msbFirst := false } } =
    showing true { engine 0x40 7 0 .hi 1 with cfg := { toy with msbFirst := false } } := by decide

/-- V2, V3, V8: byte frames. -/
theorem test_wave_a5 : wave toy 0xA5 = [true, false, true, false, false, false, true, false, false, false,
    true, false, true, false, false, false, true, false, false, false, true, false, false, false,
    true, false, true, false, false, false, true, false, false, false, true, false, true, false, false, false] := by
  decide
theorem test_wave_order : wave { toy with msbFirst := false } 0x80 = wave toy 0x01 ∧ wave toy 0x80 ≠ wave toy 0x01 := by
  decide

/-! ### The decoder (V9, V10, V11) -/

theorem test_smpCapture : (run (.phv 0b10#2) { base with phase := 0b11 }).smpq = [0xB] ∧
    (run (.phv 0b10#2) { base with phase := 0b11 }).phase = 0b10 := by decide
theorem test_smpCapture_full : (run (.phv 0b01#2) { base with smpq := [0x4, 0xD, 0xB, 0x2] }).smpq = [0x4, 0xD, 0xB, 0x2] ∧
    (run (.phv 0b01#2) { base with smpq := [0x4, 0xD, 0xB, 0x2] }).phase = 0b01 := by decide

/-- V9: every sample is taken and recorded; only `0x4` and `0xB` publish. -/
theorem test_qdec_all_samples : ∀ x : Sample,
    let t := nextOf (step { base with smpq := [x], script := [.one .takeSample] })
    t.smpq = [] ∧ t.lastSample = x ∧ evr t = if x = 0x4 then 0b101 else if x = 0xB then 0b110 else 0b000 := by decide
theorem test_qdec_not_enabled : step { base with script := [.one .takeSample] } = .next base := rfl

/-! ### The debouncer (V12 to V17) -/

theorem test_debTick_opens : (run (.dbw 0b11#2) base).cnt = 10 ∧ (run (.dbw 0b11#2) base).acc = false := by decide
theorem test_debTick_accepts : (run (.dbw 0b11#2) { base with cnt := 1 }).acc = true ∧
    evr (run (.dbw 0b11#2) { base with cnt := 1 }) = 0b111 := by decide
theorem test_debTick_bounce : (run (.dbw 0b10#2) { base with cnt := 8 }).cnt = 0 := by decide
theorem test_debTick_release : (run (.dbw 0b10#2) { base with acc := true, cnt := 1 }).acc = false ∧
    (run (.dbw 0b10#2) { base with acc := true, cnt := 1 }).wptr = 0 := by decide
theorem test_debTick_enter_dropped : (run (.dbw 0b11#2) { ring 32 0 with cnt := 1 }).acc = true ∧
    (run (.dbw 0b11#2) { ring 32 0 with cnt := 1 }).wptr = 32 := by decide
theorem test_debNotick : run (.dbw 0b01#2) { base with cnt := 5 } = { base with cnt := 5 } := by decide

/-! ### The event queue (V18 to V23) -/

theorem test_publishUp : evr (run (.evc 0b01#2) base) = 0b101 ∧ (run (.evc 0b01#2) base).wptr = 1 := by decide
theorem test_publishDown_dropped : run (.evc 0b10#2) (ring 32 0) = ring 32 0 := by decide
theorem test_publishEnter_wraps : (run (.evc 0b11#2) (ring 38 7)).slot[6] = 0b11 ∧
    (run (.evc 0b11#2) (ring 63 40)).wptr = 0 := by decide
theorem test_poll : (run (.popw 1#1) (ring 6 5)).trace = [.polled 0b101] ∧
    (run (.popw 1#1) (ring 6 5)).rptr = 6 := by decide
theorem test_poll_empty : (run (.popw 1#1) base).trace = [.polled 0b000] ∧ (run (.popw 1#1) base).rptr = 0 := by decide
theorem test_noPoll : (run (.popw 0#1) (ring 6 5)).trace = [.peeked 0b101] ∧ (run (.popw 0#1) (ring 6 5)).rptr = 5 := by
  decide
theorem test_poll_lagging : (run (.popw 1#1) (lagging 1 0 0 0)).trace = [.polled 0b000] := by decide
theorem test_publish_lagging : (run (.evc 0b01#2) (lagging 32 1 0 32)).wptr = 32 ∧
    (run (.evc 0b01#2) (lagging 32 1 1 32)).wptr = 33 := by decide
theorem test_syncR_exact : run .syncR (ring 6 5) = ring 6 5 := by decide
theorem test_syncW_exact : run .syncW (ring 6 5) = ring 6 5 := by decide

/-- The range a SYNC step moves in: nowhere, half way, up to the cursor, never past it. -/
theorem test_cursorAdvance : cursorAdvance 62 2 0 = 62 ∧ cursorAdvance 62 2 3 = 1 ∧ cursorAdvance 62 2 4 = 2 ∧
    cursorAdvance 62 2 5 = 62 := by decide

/-- V22, with EVQ_LAG = 1: a SYNC step brings the copy up to the cursor. -/
theorem test_syncW : (nextOf (step { lagging 1 0 0 0 with script := [.one (.word .syncW)] })).wptrC = 1 := by decide

/-- With EVQ_LAG = 2 a step is bound to catch up only when the cursor stood still since the step before (R123, R173). -/
theorem test_stood_still : stoodStill 2 2 (syncPast 2 2 (syncPast 2 1 [])) = false ∧ stoodStill 2 5 (syncPast 2 5 []) = false ∧
    stoodStill 2 5 (syncPast 2 5 [5, 3]) = true ∧ stoodStill 2 5 (syncPast 2 5 [4, 5]) = false := by decide

/-- V21: PUBLISH and POLL in one cycle, queue full, empty, and with one event. -/
theorem test_same_cycle :
    let go := fun s : State => nextOf (step { s with script := [.sameCycle (.word (.popw 1#1)) (.word (.evc 0b01#2))] })
    ((go (ring 32 0)).wptr = 32 ∧ (go (ring 32 0)).rptr = 1) ∧ ((go base).wptr = 1 ∧ (go base).rptr = 0) ∧
    ((go (ring 1 0)).wptr = 2 ∧ (go (ring 1 0)).rptr = 1) := by decide

/-- V23: the last free slot goes to the producer that EVQ_ARB puts first. -/
theorem test_arbitration :
    let go := fun a : Config.Arbitration => nextOf (step { ring 31 0 with
      cfg := { toy with evqArb := a }, smpq := [0x4], cnt := 1
      script := [.sameCycle .takeSample (.word (.dbw 0b11#2))] })
    (go .qdecFirst).slot[31] = 0b01 ∧ (go .debFirst).slot[31] = 0b11 ∧
    (go .qdecFirst).wptr = 32 ∧ (go .debFirst).acc = true := by decide

/-! ### A `clk_sys` cycle (R18, R90, R172) -/

/-- The state at the start of the last cycle before a tick, with DIV = 2. -/
def lastCycle : State := { base with cfg := { toy with div := 2 }, divcnt := 1, txq := [0xA5] }

/-- The divider counts, the cycle that wraps ticks and takes the byte presented, and QDEC is shown `smp_pending`. -/
theorem test_clock_counts : nextOf (step { lastCycle with divcnt := 0, script := [.clock (.word (.txw 0x081#9)) true] }) =
    { lastCycle with trace := [.smpPending false] } := by decide
theorem test_clock_enqueue : let t := nextOf (step { lastCycle with script := [.clock (.word (.txw 0x181#9)) false] })
    t.txq = [0x81] ∧ t.ph = .hi ∧ t.divcnt = 0 ∧ t.trace = [.smpPending false, .out true, .accepted 0x81] := by decide

/-- R90 for a byte that a turn of HOST presents: after the tick where there was room, not in this cycle where there was
none, in either listing. -/
theorem test_turn_and_tick :
    let go := fun (q : List Byte) (x : Config.Slot) =>
      nextOf (step { lastCycle with txq := q, host := .enqueue 0x81, script := [x] })
    (go [0xA5] (.clock .hostTurn false)).trace = [.smpPending false, .out true, .accepted 0x81] ∧
    (go [0xA5, 0x42] (.clock .hostTurn true)).txq = [0x42] ∧
    (go [0xA5] (.sameCycle .hostTurn tickRequest)).txq = [0x81] ∧
    (go [0xA5, 0x42] (.sameCycle tickRequest .hostTurn)).host = .enqueue 0x81 := by decide

/-- No rule orders IS_DRAINING and the tick that ends a transmission: either listing is a run (log 14). -/
theorem test_clock_order :
    let go := fun f : Bool => nextOf (step { engine 0 0 0 .gap 1 with script := [.clock (.word .txBusy) f] })
    (go true).trace = [.smpPending false, .out false, .busy false] ∧
    (go false).trace = [.smpPending false, .busy true, .out false] := by decide

/-- A sample captured in a cycle is taken in it where the capture is listed first, and not where it is second (log 14). -/
theorem test_capture_and_take :
    let go := fun a b : Config.Request => nextOf (step { base with script := [.sameCycle a b] })
    (go (.word (.phv 0b01#2)) .takeSample).lastSample = 0x4 ∧ (go .takeSample (.word (.phv 0b01#2))).smpq = [0x4] := by
  decide

/-! ### The host procedures (V24, V25, V26) -/

set_option maxRecDepth 8000 in
theorem test_validate_rows :
    validateResult toy good 120 = .raised (.invalidImage .tooShort) ∧ validateResult toy good 121 = .ok 121 ∧
    validateResult toy (image 0x00 0x55 0x83 0x40 0x80) 121 = .raised (.invalidImage .lengthMismatch) ∧
    validateResult toy (image 0x01 0x55 0x82 0x40 0x80) 121 = .raised (.invalidImage .badMarker) ∧
    validateResult toy (image 0x00 0x55 0x82 0x40 0x81) 121 = .raised (.invalidImage .missingTerminator) ∧
    validateResult toy (image 0x00 0x55 0x08 0x40 0x80) 121 = .raised (.invalidImage .lengthMismatch) ∧
    validateResult toy (image 0x00 0x55 0x0A 0x40 0x80) 121 = .raised (.invalidImage .missingTerminator) ∧
    validateResult toy short 121 = .ok 2 ∧
    validateResult toy (image 0x01 0x55 0xF0 0x43 0x80) 121 = .raised (.invalidImage .badMarker) := by decide
set_option maxRecDepth 8000 in
theorem test_validate : (run (.validate good 121) base).trace = [.validated (.ok 121)] := by decide
set_option maxRecDepth 8000 in
theorem test_send_rejected : run (.send [0x90#8] good 120) base =
    { base with trace := [.sent (.raised (.invalidImage .tooShort))] } := by decide
set_option maxRecDepth 8000 in
theorem test_send_starts : (run (.send [0x90#8] short 121) base).host = .settle 1 [0x90] [0x00, 0x80] := by decide
/-- R58, R162: HOST in a DRAIN_WAIT does not poll; IS_DRAINING is what it does there. -/
theorem test_drain_orders_poll : run (.popw 1#1) { ring 6 5 with host := .drain } = { ring 6 5 with host := .drain } ∧
    (run .txBusy { base with host := .drain }).trace = [.busy false] ∧
    run (.txw 0x181#9) { base with host := .drain } = { base with host := .drain } := by decide
theorem test_sentName : sentName [0x2D, 0x90, 0x2E] = [0x2D, 0x90] ∧ sentName [0x90] = [0x90] := by decide
theorem test_progress : progressPercent 127 150 = 85 := by decide

/-! ### RESET and the inputs -/

theorem test_reset :
    let t := run (.rst 1#1)
      { engine 0x4A 7 1 .hi 1 with
        txq := [1, 2], smpq := [4], acc := true, cnt := 3, lines := 0b10, host := .enqueue 7 }
    t.host = .idle ∧ t.txq = [] ∧ t.sr = 0 ∧ t.nb = 0 ∧ t.np = 0 ∧ t.ph = .idle ∧ t.tmr = 0 ∧ t.smpq = [] ∧
      t.acc = false ∧ t.cnt = 0 ∧ t.phase = 0b10 := by decide
theorem test_no_event_code_refused :
    step { base with script := [.one (.word (.evc 0b00#2))] } = .refused .noneEventCode := rfl

/-! ### Witnesses: each hypothesis of each obligation is met, clause by clause, at its boundaries -/

/-- The invariant holds in states of each phase, with full and empty queues, exact and lagging cursors. -/
theorem wit_inv : ∀ s ∈ [base, engine 0x4A 7 1 .hi 1, engine 0x4A 7 1 .lo 1, engine 0x4A 7 0 .gap 2,
    { base with cnt := 10 }, { base with acc := true }, { base with txq := [1, 2] }, ring 32 0, ring 6 5, ring 1 0,
    lagging 32 1 0 32, lagging 1 0 0 0], Inv s := by
  simp only [List.forall_mem_cons, List.not_mem_nil, false_imp_iff, implies_true, and_true]
  refine ⟨?_, ?_, ?_, ?_, ?_, ?_, ?_, ?_, ?_, ?_, ?_, ?_⟩ <;>
    exact ⟨by decide, by constructor <;> decide, by constructor <;> decide, trivial⟩

/-- StepRunsDecodedWord, StepTakesHeadSample, StepTakesInputs: legal parameters, the slot first, room and none. -/
theorem wit_step_slots : base.cfg.Legal ∧ decode (.txw 0x1A5#9) = .op (.enqueue 0xA5) ∧
    ({ base with smpq := [0x4] } : State).smpq.head? = some 0x4 ∧ decode (.smp 0x4#4) = .op .qdecIncrease ∧
    base.smpq = [] ∧ [0x1#4, 0x2, 0x3].length < toy.smpqDepth ∧ toy.smpqDepth ≤ [0x1#4, 0x2, 0x3, 0x4].length := by
  decide

/-- SameCycleTickThenEnqueue: room for one more, and full; a turn that presents the byte of a blocked ENQUEUE, of a name or
of a payload, and one that presents none. -/
theorem wit_same_cycle_enqueue : base.cfg.Legal ∧ base.host = .idle ∧ [0x81#8].length < base.cfg.txqDepth ∧
    [0x81#8, 0x42#8].length = base.cfg.txqDepth ∧ encode .pteTick = .pulse 1 ∧
    encode (.enqueue 0xA5) = .txw 0x1A5 ∧ presented { base with host := .enqueue 3 } = some 3 ∧
    presented { base with host := .sendName [0x90] [1] } = some 0x90 ∧
    presented { base with host := .sendPayload [1, 2] 0 2 } = some 1 ∧ presented { base with host := .drain } = none ∧
    presented base = none := by decide

/-- SameCyclePublishAndPoll: full, empty, and the least and greatest counts between, for each way of publishing. -/
theorem wit_same_cycle_poll : (ring 32 0).host = .idle ∧ ({ ring 32 0 with smpq := [0xB] } : State).smpq = 0xB :: [] ∧
    ({ ring 0 0 with cnt := 1 } : State).cnt = 1 ∧ (ring 0 0).acc = false ∧
    evCount { ring 31 0 with smpq := [0x4] } = 31 ∧ evCount { ring 32 0 with cnt := 1 } = 32 ∧
    (ring 32 0).cfg.Legal ∧ (ring 32 0).cfg.evqLag = 0 ∧ evCount (ring 32 0) = 32 ∧
    evCount (ring 0 0) = 0 ∧ evCount (ring 1 0) = 1 ∧ evCount (ring 31 0) = 31 := by decide

/-- SameCycleProducersArbitrated: a head sample, under each arbitration. -/
theorem wit_arbitration : ({ base with smpq := [0x4] } : State).cfg.Legal ∧ decode (.smp 0x4#4) = .op .qdecIncrease ∧
    ({ toy with evqArb := .qdecFirst } : Config.Params).Legal ∧ ({ toy with evqArb := .debFirst } : Config.Params).Legal ∧
    toy.evqArb = .any := by decide

/-- ClockCycleCountsDivider: a cycle that does not wrap, and one that does; each kind of word; QDEC's turn with a sample and
without; HOST's with a byte and without; TXQ with room and full. -/
theorem wit_clock : decode (.rst 0#1) = .quiet ∧ decode (.txw 0x181#9) = .op (.enqueue 0x81) ∧
    decode (.popw 1#1) = .op .poll ∧ lastCycle.divcnt + 1 = lastCycle.cfg.div ∧ lastCycle.txq.length < 2 ∧
    [0x81#8, 0x42#8].length = lastCycle.cfg.txqDepth ∧ ({ toy with div := 2 } : Config.Params).Legal ∧ 0 < 2 ∧
    0 + 1 < 2 ∧ 1 < 2 ∧ 1 + 1 = 2 ∧ decode (.smp 0x4#4) = .op .qdecIncrease ∧ lastCycle.smpq = [] ∧
    ({ lastCycle with smpq := [0x4] } : State).smpq.head? = some 0x4 ∧
    presented { lastCycle with host := .enqueue 3 } ≠ none ∧ presented lastCycle = none := by decide

/-- IllegalParametersRefused: each constraint of R7 can be broken. -/
theorem wit_illegal : ({ toy with n0 := 2 } : Config.Params).n0 = toy.n1 ∧ ({ toy with tHi := 0 } : Config.Params).tHi = 0 ∧
    ({ toy with div := 0 } : Config.Params).div = 0 := by decide

/-- EnqueueAccepted, EnqueueBlockedHoldsByte: HOST free and blocked, the last free entry and none. -/
theorem wit_enqueue : base.host = .idle ∧ ({ base with host := .enqueue 1 } : State).host = .enqueue 1 ∧
    [0x81#8].length < toy.txqDepth ∧ [0x81#8, 0x42#8].length = toy.txqDepth := by decide

/-- IsDrainingAnswersBusy, DrainWaitCompletesOrBlocks: busy by the queue, busy by the phase, idle. -/
theorem wit_busy : ({ base with txq := [1] } : State).txq ≠ [] ∧ (engine 0 0 0 .gap 1).ph ≠ .idle ∧ base.txq = [] ∧
    base.ph = .idle ∧ ({ base with host := .drain } : State).host = .drain := by decide

/-- SecondTransmitterRefused: HOST in another procedure, the engine busy, the operands well-formed. -/
theorem wit_second_transmitter : ({ engine 0 0 0 .gap 1 with host := .enqueue 1 } : State).host ≠ .idle ∧
    HostProc.enqueue 1 ≠ .enqueue 2 ∧ HostProc.enqueue 1 ≠ .drain ∧ HostProc.sendDrain ≠ .drain ∧
    txBusy (engine 0 0 0 .gap 1) = true ∧
    ImageOk toy [0x00#8] 1 ∧ NameOk [0x90#8] := by decide

/-- StartBitTakesNextBit: both bit orders. -/
theorem wit_bit_order : toy.msbFirst = true ∧ ({ toy with msbFirst := false } : Config.Params).msbFirst = false := by decide

/-- TickInIdle, TickInHigh, TickInLow, TickInGap: each clause, with TMR at 2 and at 1. -/
theorem wit_ticks : base.ph = .idle ∧ base.txq = [] ∧ ({ base with txq := [0xA5] } : State).txq = 0xA5 :: [] ∧
    (engine 0x4A 7 1 .hi 2).ph = .hi ∧ 1 < (engine 0x4A 7 1 .hi 2).tmr ∧ (engine 0x4A 7 1 .hi 1).tmr ≤ 1 ∧
    (engine 0x4A 7 1 .lo 2).ph = .lo ∧ 1 < (engine 0x4A 7 1 .lo 2).tmr ∧ 0 < (engine 0x4A 7 1 .lo 1).np ∧
    (engine 0x4A 7 0 .lo 1).np = 0 ∧ (engine 0x4A 7 0 .gap 2).ph = .gap ∧ 1 < (engine 0x4A 7 0 .gap 2).tmr ∧
    (engine 0x4A 7 0 .gap 1).nb ≠ 0 ∧ (engine 0 0 0 .gap 1).nb = 0 ∧ (engine 0 0 0 .gap 1).txq = [] := by decide

/-- CaptureQueuesTransition, NotEnabledChangesNothing: a change with room and without, no change, another sample, HOST in
a SEND and in a DRAIN_WAIT. -/
theorem wit_capture : ({ base with host := .settle 1 [0x90] [0] } : State).host ≠ .idle ∧
    ({ base with host := .drain } : State).host = .drain ∧ BitVec.ofBool true ++ BitVec.ofBool false ≠ base.phase ∧
    BitVec.ofBool false ++ BitVec.ofBool false = base.phase ∧ [0x4#4, 0xD, 0xB].length < toy.smpqDepth ∧
    [0x4#4, 0xD, 0xB, 0x2].length = toy.smpqDepth ∧ base.smpq.head? ≠ some 0x4 := by decide

/-- QdecStepTakesSample: a head sample, the queue one short of full and full. -/
theorem wit_qdec : ({ base with smpq := [0xF, 0x4] } : State).smpq = 0xF :: [0x4] ∧
    cursorDistance (rptrSeen (ring 31 0)) (ring 31 0).wptr ≠ 32 ∧ cursorDistance (rptrSeen (ring 32 0)) (ring 32 0).wptr = 32 ∧
    cursorDistance (rptrSeen (lagging 32 1 0 32)) (lagging 32 1 0 32).wptr = 32 := by decide

/-- DebounceTransitions: each row of R106, CNT at 0, 1, 2 and 10; the queue with room and full. -/
theorem wit_debounce : base.cfg.source = Config.document ∧ true ≠ base.acc ∧ false = base.acc ∧ base.cnt = 0 ∧
    ({ base with cnt := 2 } : State).cnt ≠ 1 ∧
    ({ base with cnt := 10 } : State).cnt ≠ 0 ∧ ({ base with cnt := 1 } : State).cnt = 1 ∧
    ({ base with acc := true } : State).acc = true ∧ cursorDistance (rptrSeen base) base.wptr ≠ 32 ∧
    cursorDistance (rptrSeen (ring 32 0)) (ring 32 0).wptr = 32 := by decide

/-- PublishStoresOrDrops, PollAnswersOldest, SyncMovesCopyForward: both clauses, exact and lagging cursors. -/
theorem wit_queue : wptrSeen base = base.rptr ∧ wptrSeen (ring 6 5) ≠ (ring 6 5).rptr ∧
    wptrSeen (lagging 1 0 0 0) = (lagging 1 0 0 0).rptr ∧ 0 < (lagging 1 0 0 0).cfg.evqLag ∧ base.cfg.evqLag = 0 := by decide

set_option maxRecDepth 8000 in
/-- ValidateChecksInOrder, HostPreconditionsRefused: the bounds met, and each broken. -/
theorem wit_validate : toy.source = Config.document ∧ 121 ≤ 16384 ∧ 121 ≤ good.length ∧ 16384 < 16385 ∧ good.length < 122 ∧
    (∀ b ∈ [0x2D#8, 0x2E#8], b.getLsbD 7 = false) ∧
    (∀ k, k < good.length → (good[k]?).map BitVec.toNat = some ((good.getD k 0).toNat)) := by decide

set_option maxRecDepth 8000 in
/-- SendStartsOrFails, AcceptedLengthBounds, TerminatorFlipRejects, SendTransmitsNameThenImage: images accepted at both
ends of the range of `L`, and one that is rejected; a queue with room for all of it. -/
theorem wit_send : base.host = .idle ∧ validateImage toy good 121 = .ok 121 ∧ validateImage toy short 121 = .ok 2 ∧
    validateImage toy good 120 = .error .tooShort ∧ (∃ b ∈ [0x90#8], b.getLsbD 7 = true) ∧ ImageOk toy short 121 ∧
    NameOk [0x90#8] ∧ ({ toy with txqDepth := 3 } : Config.Params).Legal ∧ 0 + (sentName [0x90#8]).length + 2 ≤ 3 ∧
    (short.set 5 0x66).take 2 = short.take 2 ∧ (short.set 5 0x66)[11]? = short[11]? ∧
    (short.set 5 0x66)[12]? = short[12]? ∧ 0x81#8 ≠ 0x80#8 := by
  refine ⟨rfl, rfl, rfl, rfl, ?_⟩
  decide

/-- StepKeepsInvariant, ParametersNeverChange, CountersFitTheirWidths: a state with the invariant takes a step. -/
theorem wit_invariant_step : Inv { base with script := [.one (.word (.txw 0x1A5#9))] } ∧
    ∃ t, step { base with script := [.one (.word (.txw 0x1A5#9))] } = .next t :=
  ⟨⟨by decide, by constructor <;> decide, by constructor <;> decide, trivial⟩, _, rfl⟩

/-- HardwareNeverStops and the statements on who writes what: an operation of each agent gives a next state. -/
theorem wit_agents : agentOf .pteTick ≠ .host ∧ agentOf .poll ≠ .qdec ∧ agentOf .poll ≠ .deb ∧
    (∃ t, exec .pteTick base = .next t) ∧ (∃ t, exec (.enqueue 1) base = .next t) ∧
    (∃ t, exec (.smpCapture true false) base = .next t) ∧ (∃ t, exec .poll base = .next t) :=
  ⟨by decide, by decide, by decide, ⟨_, rfl⟩, ⟨_, rfl⟩, ⟨_, rfl⟩, ⟨_, rfl⟩⟩

/-- LineIsConcatenatedWaves, BusyFallsOneTickAfterLastGap, DrainEndsWithinBound: an idle engine with a byte, and a busy one. -/
theorem wit_line : ({ base with txq := [0xA5] } : State).cfg.Legal ∧ ({ base with txq := [0xA5] } : State).ph = .idle ∧
    ({ base with txq := [0xA5] } : State).txq ≠ [] ∧ txBusy { base with txq := [1, 2] } = true ∧
    txBusy (engine 0x4A 7 1 .hi 1) = true := by decide

/-- The slots of a fair run: a pulse tick with a debounce tick, then QDEC's turn, and so on. -/
def fairSlots (n : Nat) : Config.Slot :=
  if n % 2 = 0 then .sameCycle tickRequest (.word (.dbw 0b10#2)) else .one .takeSample

/-- The states of that run, from a byte in TXQ and a sample in SMPQ. -/
def fairRun : Nat → State
  | 0 => { base with txq := [0xA5], smpq := [0x4] }
  | n + 1 => nextOf (runSlot (fairSlots n) (fairRun n))

/-- Every such slot has a next state, the parameters stay, and no byte is accepted. -/
theorem fairSlots_next (n : Nat) (s : State) :
    ∃ t, runSlot (fairSlots n) s = .next t ∧ t.cfg = s.cfg ∧ acceptedBytes t.trace = acceptedBytes s.trace := by
  unfold fairSlots
  split
  · obtain ⟨k, h | h⟩ := performBoth_cases tickRequest (.word (.dbw 0b10#2)) (showPending s)
    · exact ⟨_, h, by simp, by simp [acceptedBytes, showPending, observe]⟩
    · exact ⟨_, h, by simp, by simp [acceptedBytes, showPending, observe]⟩
  · cases h : s.smpq with
    | nil => exact ⟨s, by simp [runSlot, performRequest, resolve, h, perform], rfl, rfl⟩
    | cons x q => exact ⟨qdecStep x s, by simp [runSlot, performRequest, resolve, h, perform_smp], by simp, by simp⟩

theorem fairRun_next (n : Nat) : runSlot (fairSlots n) (fairRun n) = .next (fairRun (n + 1)) ∧
    (fairRun n).cfg = toy ∧ acceptedBytes (fairRun (n + 1)).trace = acceptedBytes (fairRun n).trace := by
  have h : ∀ n, runSlot (fairSlots n) (fairRun n) = .next (fairRun (n + 1)) ∧ (fairRun (n + 1)).cfg = (fairRun n).cfg ∧
      acceptedBytes (fairRun (n + 1)).trace = acceptedBytes (fairRun n).trace := by
    intro n
    obtain ⟨t, h, hc⟩ := fairSlots_next n (fairRun n)
    have e : fairRun (n + 1) = t := by
      show nextOf (runSlot (fairSlots n) (fairRun n)) = t
      rw [h]; rfl
    rw [e]
    exact ⟨h, hc⟩
  refine ⟨(h n).1, ?_, (h n).2.2⟩
  induction n with
  | zero => rfl
  | succ n ih => exact (h n).2.1.trans ih

/-- FairRunsReleaseWaits: an infinite, weakly fair run without RESET in which no byte is accepted, from a state with the
invariant, a byte to send and a sample to take. -/
theorem wit_fair_run : IsRun fairSlots fairRun ∧ Inv (fairRun 0) ∧ WeaklyFair fairSlots fairRun ∧
    NoResetFrom fairSlots 0 ∧ txBusy (fairRun 0) = true ∧ (fairRun 0).smpq = 0x4 :: [] ∧
    ∀ m, acceptedBytes (fairRun (m + 1)).trace = acceptedBytes (fairRun m).trace := by
  have he : ∀ n, fairSlots (2 * n) = .sameCycle tickRequest (.word (.dbw 0b10#2)) := fun n => if_pos (by omega)
  have ho : ∀ n, fairSlots (2 * n + 1) = .one .takeSample := fun n => if_neg (by omega)
  refine ⟨fun n => ⟨by rw [(fairRun_next n).2.1]; decide, (fairRun_next n).1⟩,
    ⟨by decide, by constructor <;> decide, by constructor <;> decide, trivial⟩,
    ⟨fun n => ⟨2 * n, by omega, ?_⟩, fun n => ⟨2 * n, false, by omega, ?_⟩, fun n _ => ⟨2 * n + 1, by omega, ?_⟩,
      fun h => absurd h (by decide), fun h => absurd h (by decide)⟩, fun m _ => ?_, by decide, rfl,
    fun m => (fairRun_next m).2.2⟩
  · rw [he]; simp [ticks, requestsOf]
  · rw [he]; simp [requestsOf]; right; decide
  · rw [ho]; simp [requestsOf]
  · unfold fairSlots
    split <;> decide

/-- PublishAppendsUnread, UnreadEventsKept: with the invariant an accepted and a dropped PUBLISH, 31 and 32 unread. -/
theorem wit_unread : Inv (ring 31 0) ∧ Inv (ring 32 0) ∧ exec (publishInstr .up) (ring 32 0) = .next (ring 32 0) ∧
    (∃ t, exec (publishInstr .up) (ring 31 0) = .next t) ∧ (unread (ring 31 0)).length < 32 ∧
    (ring 31 0).cfg.evqLag = 0 :=
  ⟨⟨by decide, by constructor <;> decide, by constructor <;> decide, trivial⟩,
    ⟨by decide, by constructor <;> decide, by constructor <;> decide, trivial⟩, rfl, ⟨_, rfl⟩, by decide, by decide⟩

/-- QuiescentReachedAndStable: quiescent states with exact and with lagging cursors. -/
theorem wit_quiescent : TransmitQuiescent base ∧ InputQuiescent false base ∧ InputQuiescent false (lagging 1 0 0 1) ∧
    InputQuiescent true { base with acc := true } := by decide

/-- EleventhTickAccepts, AcceptNeedsElevenInARow: a closed window, either level accepted, and a run that accepts. -/
theorem wit_eleven : Inv base ∧ base.cnt = 0 ∧ base.acc = false ∧ ({ base with acc := true } : State).acc = true ∧
    (unread base).length < 32 ∧ (∃ t, runOps ((List.replicate 11 true).map .debTick) base = .next t ∧ t.acc ≠ base.acc) :=
  ⟨⟨by decide, by constructor <;> decide, by constructor <;> decide, trivial⟩, by decide, by decide, by decide, by decide,
    _, rfl, by decide⟩

/-- TurnPresentsNextByte: a turn that sends a byte, and one that waits. -/
theorem wit_turn : (∃ t, hostTurn { base with host := .sendPayload [1, 2] 0 2 } = .next t) ∧
    (∃ t, hostTurn { base with txq := [1, 2], host := .enqueue 3 } = .next t) := ⟨⟨_, rfl⟩, ⟨_, rfl⟩⟩

end Sys2Proof.Tests
end

section
/-! PROOFS. What an operation, a request and a slot do to the transmitter and to the sample queue; what PTE_TICK does to
the line's future; and with these the waits that a fair run releases (R8, R93, R101). -/

namespace Sys2Proof.Machine

open Sys2Proof.Config (Request Slot)

/-! ### Words and the operations they select (R60, R72) -/

theorem encode_decodeTxw (w : BitVec 9) : encode (decodeTxw w) = .txw w := by
  have hw : BitVec.ofBool w.msb ++ w.setWidth 8 = w := BitVec.cons_msb_setWidth w
  unfold decodeTxw
  split <;> rename_i hv <;> simp only [encode, encodeTxw]
  · rw [← hv, hw]
  · rw [← Bool.eq_false_of_not_eq_true hv, hw]

theorem encode_decodePhv (w : BitVec 2) : encode (decodePhv w) = .phv w := by revert w; decide

theorem encode_decodeSmp (x : Sample) : encode (decodeSmp x) = .smp x := by revert x; decide

theorem encode_decodeDbw (w : BitVec 2) : encode (decodeDbw w) = .dbw w := by revert w; decide

theorem encode_decodePopw (w : BitVec 1) : encode (decodePopw w) = .popw w := by revert w; decide

theorem encode_publishInstr (e : KeyEvent) : encode (publishInstr e) = .evc e.code := by cases e <;> rfl

theorem code_of_eventOfCode {w : BitVec 2} {e : KeyEvent} (h : eventOfCode w = some e) : e.code = w := by
  cases e <;> revert w <;> decide

theorem decodeStrobe_eq_op {w : BitVec 1} {i j : Instr} (h : decodeStrobe w i = .op j) : w = 1#1 ∧ i = j := by
  unfold decodeStrobe at h
  split at h
  · exact ⟨‹_›, Decoded.op.inj h⟩
  · cases h

/-- The word that selects an operation is the operation's own word. -/
theorem encode_of_decode {w : PortWord} {i : Instr} (h : decode w = .op i) : encode i = w := by
  cases w with
  | txw w => cases h; exact encode_decodeTxw w
  | phv w => cases h; exact encode_decodePhv w
  | smp x => cases h; exact encode_decodeSmp x
  | dbw w => cases h; exact encode_decodeDbw w
  | popw w => cases h; exact encode_decodePopw w
  | evc w =>
    simp only [decode, decodeEvc] at h
    split at h
    · rename_i e he
      cases h
      rw [encode_publishInstr, code_of_eventOfCode he]
    · cases h
  | pulse w => obtain ⟨rfl, rfl⟩ := decodeStrobe_eq_op h; rfl
  | rst w => obtain ⟨rfl, rfl⟩ := decodeStrobe_eq_op h; rfl
  | txBusy | drainWait | syncR | syncW | validate buf n | send name buf n => cases h; rfl

/-! ### What an operation does to the transmitter (R11 to R16, R78) -/

/-- From `s` to `t` the engine stands still and TXQ takes in the byte `b`, if there is one; that needs room. -/
structure Transmits (b : Option Byte) (s t : State) : Prop where
  sr : t.sr = s.sr
  nb : t.nb = s.nb
  ph : t.ph = s.ph
  np : t.np = s.np
  tmr : t.tmr = s.tmr
  cfg : t.cfg = s.cfg
  txq : t.txq = s.txq ++ b.toList
  accepted : acceptedBytes t.trace = acceptedBytes s.trace ++ b.toList
  room : b ≠ none → txFull s = false

/-- Such a change that leaves the samples alone too, as all of HOST's operations do. -/
structure TransmitsOnly (b : Option Byte) (s t : State) : Prop extends Transmits b s t where
  smpq : t.smpq = s.smpq
  lastSample : t.lastSample = s.lastSample

theorem TransmitsOnly.refl (s : State) : TransmitsOnly none s s := ⟨by constructor <;> simp, rfl, rfl⟩

theorem TransmitsOnly.of_host (s : State) (p : HostProc) : TransmitsOnly none s { s with host := p } :=
  ⟨by constructor <;> simp, rfl, rfl⟩

theorem TransmitsOnly.observed {s t : State} {o : Observation} (h : TransmitsOnly none s t) (ho : acceptedBytes [o] = []) :
    TransmitsOnly none s (observe o t) :=
  { h with accepted := by simpa [ho] using h.accepted }

theorem acceptByte_transmitsOnly {d : Byte} {s : State} (p : HostProc) (hr : txFull s = false) :
    TransmitsOnly (some d) s (acceptByte d { s with host := p }) :=
  ⟨by constructor <;> simp [acceptedBytes, hr], rfl, rfl⟩

/-- A byte that HOST presents is accepted, or HOST waits with it (R78). -/
theorem presentByte_transmitsOnly (d : Byte) (s : State) :
    ∃ b, TransmitsOnly b s (presentByte d s) ∧ ∀ e, b = some e → e = d := by
  unfold presentByte
  split
  · exact ⟨none, .of_host s _, nofun⟩
  · exact ⟨some d, acceptByte_transmitsOnly .idle (Bool.eq_false_of_not_eq_true ‹_›), fun _ he => (Option.some.inj he).symm⟩

theorem drainReturns_transmitsOnly (s : State) : TransmitsOnly none s (drainReturns s) :=
  (TransmitsOnly.of_host s .idle).observed rfl

theorem whenHostFree_transmitsOnly {s t u : State} (hu : TransmitsOnly none s u) (h : whenHostFree s (.next u) = .next t) :
    TransmitsOnly none s t := by
  rcases whenHostFree_cases s (.next u) with ⟨_, e⟩ | ⟨_, e⟩ <;> rw [e] at h <;> cases h
  · exact hu
  · exact .refl s

/-- Of HOST's operations only ENQUEUE changes the transmitter, and only by its own byte. -/
theorem exec_host_transmitsOnly {i : Instr} {s t : State} (h : exec i s = .next t) (hi : agentOf i = .host) :
    ∃ b, TransmitsOnly b s t ∧ ∀ d, b = some d → i = .enqueue d := by
  cases i with
  | enqueue d =>
    change execEnqueue d s = .next t at h
    rcases execEnqueue_cases d s with ⟨_, e⟩ | ⟨_, e⟩ | ⟨_, _, _, e⟩ <;> rw [e] at h <;> cases h
    · obtain ⟨b, hb, hd⟩ := presentByte_transmitsOnly d s
      exact ⟨b, hb, fun e he => by rw [hd e he]⟩
    · exact ⟨none, .refl s, nofun⟩
  | txNoreq x => cases h; exact ⟨none, .refl s, nofun⟩
  | isDraining =>
    change execIsDraining s = .next t at h
    refine ⟨none, ?_, nofun⟩
    rcases execIsDraining_cases s with ⟨_, e⟩ | ⟨_, _, _, e⟩ <;> rw [e] at h <;> cases h
    · exact (TransmitsOnly.refl s).observed rfl
    · exact .refl s
  | drainWait =>
    change execDrainWait s = .next t at h
    refine ⟨none, ?_, nofun⟩
    rcases execDrainWait_cases s with ⟨_, _, e⟩ | ⟨_, _, e⟩ | ⟨_, _, e⟩ <;> rw [e] at h <;> cases h
    · exact drainReturns_transmitsOnly s
    · exact .of_host s .drain
    · exact .refl s
  | poll => exact ⟨none, whenHostFree_transmitsOnly (.observed ⟨by constructor <;> simp, by simp, by simp⟩ rfl) h, nofun⟩
  | noPoll => exact ⟨none, whenHostFree_transmitsOnly ((TransmitsOnly.refl s).observed rfl) h, nofun⟩
  | validate buf n =>
    change execValidate buf n s = .next t at h
    refine ⟨none, ?_, nofun⟩
    rcases execValidate_cases buf n s with ⟨_, e⟩ | ⟨_, _, e⟩ | ⟨_, _, e⟩ <;> rw [e] at h <;> cases h
    · exact .refl s
    · exact (TransmitsOnly.refl s).observed rfl
  | send name buf n =>
    change execSend name buf n s = .next t at h
    refine ⟨none, ?_, nofun⟩
    rcases execSend_cases name buf n s with ⟨_, e⟩ | ⟨_, _, e⟩ | ⟨_, _, _, e⟩ | ⟨_, _, _, _, e⟩ | ⟨_, _, _, e⟩ <;>
      rw [e] at h <;> cases h
    · exact .refl s
    · rcases beginSend_cases name buf n s with ⟨_, _, e⟩ | ⟨_, _, e⟩ <;> rw [e]
      · exact (TransmitsOnly.refl s).observed rfl
      · exact .of_host s _
  | _ => cases hi

/-- A turn of HOST transmits at most the byte that HOST presents. -/
theorem hostTurn_transmitsOnly {s t : State} (h : hostTurn s = .next t) :
    ∃ b, TransmitsOnly b s t ∧ ∀ d, b = some d → presented s = some d := by
  cases hp : s.host with
  | idle => rw [hostTurn_idle hp] at h; cases h; exact ⟨none, .refl s, nofun⟩
  | enqueue d =>
    rw [hostTurn_enqueue hp] at h
    cases h
    obtain ⟨b, hb, hd⟩ := presentByte_transmitsOnly d s
    exact ⟨b, hb, fun e he => by rw [hd e he, presented, hp]⟩
  | drain =>
    rw [hostTurn_drain hp] at h
    cases h
    refine ⟨none, ?_, nofun⟩
    split
    · exact .refl s
    · exact drainReturns_transmitsOnly s
  | settle left name payload =>
    rw [hostTurn_settle hp] at h
    cases h
    exact ⟨none, .of_host s _, nofun⟩
  | sendName name payload =>
    cases name with
    | nil => rw [hostTurn_sendName_nil hp] at h; cases h
    | cons b rest =>
      rw [hostTurn_sendName_cons hp] at h
      cases h
      split
      · exact ⟨none, .refl s, nofun⟩
      · exact ⟨some b, acceptByte_transmitsOnly _ (Bool.eq_false_of_not_eq_true ‹_›), fun e he => by rw [← he, presented, hp]⟩
  | sendPayload rest k len =>
    cases rest with
    | nil =>
      rw [hostTurn_sendPayload_nil hp] at h
      cases h
      exact ⟨none, .of_host s _, nofun⟩
    | cons b rest =>
      rw [hostTurn_sendPayload_cons hp] at h
      cases h
      split
      · exact ⟨none, .refl s, nofun⟩
      · have ha := acceptByte_transmitsOnly (d := b) (afterPayloadByte rest k len) (Bool.eq_false_of_not_eq_true ‹_›)
        refine ⟨some b, ?_, fun e he => by rw [← he, presented, hp]⟩
        rcases reportProgress_cases k len (acceptByte b { s with host := afterPayloadByte rest k len })
          with ⟨_, e⟩ | ⟨_, e⟩ <;> rw [e]
        · exact { ha with accepted := by simp [acceptedBytes] }
        · exact ha
  | sendDrain =>
    rw [hostTurn_sendDrain hp] at h
    cases h
    refine ⟨none, ?_, nofun⟩
    split
    · exact .refl s
    · exact ((drainReturns_transmitsOnly s).observed rfl).observed rfl

theorem execSyncR_transmitsOnly {s t : State} (h : execSyncR s = .next t) : TransmitsOnly none s t := by
  unfold execSyncR at h
  split at h <;> cases h
  · exact .refl s
  · exact ⟨by constructor <;> simp, rfl, rfl⟩

theorem execSyncW_transmitsOnly {s t : State} (h : execSyncW s = .next t) : TransmitsOnly none s t := by
  unfold execSyncW at h
  split at h <;> cases h
  · exact .refl s
  · exact ⟨by constructor <;> simp, rfl, rfl⟩

/-- Everything SMP_CAPTURE can do (R97). -/
theorem execSmpCapture_cases {a b : Bool} {s t : State} (h : execSmpCapture a b s = .next t) :
    t = s ∨ t = { pushSample (sampleOf (phaseOf a b) s.phase) s with phase := phaseOf a b, lines := phaseOf a b } := by
  unfold execSmpCapture at h
  split at h <;> cases h
  · exact .inl rfl
  · exact .inr rfl

/-- Apart from PTE_TICK and RESET only ENQUEUE changes the transmitter, and only by its own byte. -/
theorem exec_transmits {i : Instr} {s t : State} (h : exec i s = .next t) (hr : i ≠ .reset) (ht : i ≠ .pteTick) :
    ∃ b, Transmits b s t ∧ ∀ d, b = some d → i = .enqueue d := by
  by_cases hi : agentOf i = .host
  · obtain ⟨b, hb, hd⟩ := exec_host_transmitsOnly h hi
    exact ⟨b, hb.toTransmits, hd⟩
  refine ⟨none, ?_, nofun⟩
  cases i with
  | smpCapture a b =>
    rcases execSmpCapture_cases h with rfl | rfl <;> constructor <;> simp
  | syncR => exact (execSyncR_transmitsOnly h).toTransmits
  | syncW => exact (execSyncW_transmitsOnly h).toTransmits
  | reset => exact absurd rfl hr
  | pteTick => exact absurd rfl ht
  | enqueue | txNoreq | isDraining | drainWait | poll | noPoll | validate | send => exact absurd rfl hi
  | _ => cases h; constructor <;> simp

/-! ### What an operation does to the samples (R22, R24, R97, R99) -/

/-- From `s` to `t` samples join SMPQ behind the ones it holds, and none is taken. -/
def SamplesJoin (s t : State) : Prop := ∃ new, t.smpq = s.smpq ++ new ∧ t.lastSample = s.lastSample

/-- From `s` to `t` the head of SMPQ is taken, and LAST_SAMPLE holds it. -/
def HeadTaken (s t : State) : Prop := s.smpq = t.lastSample :: t.smpq

theorem SamplesJoin.of_eq {s t : State} (hq : t.smpq = s.smpq) (hl : t.lastSample = s.lastSample) : SamplesJoin s t :=
  ⟨[], by simp [hq], hl⟩

theorem TransmitsOnly.samplesJoin {b : Option Byte} {s t : State} (h : TransmitsOnly b s t) : SamplesJoin s t :=
  .of_eq h.smpq h.lastSample

theorem pushSample_joins (x : Sample) (s : State) : SamplesJoin s (pushSample x s) := by
  rcases pushSample_cases x s with ⟨_, h⟩ | ⟨_, h⟩ <;> rw [h]
  · exact ⟨[x], rfl, rfl⟩
  · exact .of_eq rfl rfl

theorem qdecStep_headTaken {x : Sample} {q : List Sample} {s : State} (h : s.smpq = x :: q) :
    HeadTaken s (qdecStep x s) := by
  rcases qdecStep_cases x s with ⟨hx, _⟩ | ⟨q, hq, e⟩
  · simp [h] at hx
  · rw [e]; simpa [HeadTaken] using hq

/-- QDEC_STEP on a sample takes it, or changes nothing where it is not the head. -/
theorem qdecStep_samples (x : Sample) (s : State) : SamplesJoin s (qdecStep x s) ∨ HeadTaken s (qdecStep x s) := by
  rcases qdecStep_cases x s with ⟨_, e⟩ | ⟨q, hq, _⟩
  · rw [e]; exact .inl (.of_eq rfl rfl)
  · exact .inr (qdecStep_headTaken hq)

/-- Apart from RESET an operation takes no sample, or it is a QDEC_STEP and takes the head. -/
theorem exec_samples {i : Instr} {s t : State} (h : exec i s = .next t) (hr : i ≠ .reset) :
    SamplesJoin s t ∨ ((∃ x, encode i = .smp x) ∧ HeadTaken s t) := by
  by_cases hi : agentOf i = .host
  · obtain ⟨b, hb, _⟩ := exec_host_transmitsOnly h hi
    exact .inl hb.samplesJoin
  cases i with
  | smpCapture a b =>
    rcases execSmpCapture_cases h with rfl | rfl
    · exact .inl (.of_eq rfl rfl)
    · exact .inl (pushSample_joins _ s)
  | syncR => exact .inl (execSyncR_transmitsOnly h).samplesJoin
  | syncW => exact .inl (execSyncW_transmitsOnly h).samplesJoin
  | reset => exact absurd rfl hr
  | enqueue | txNoreq | isDraining | drainWait | poll | noPoll | validate | send => exact absurd rfl hi
  | pteTick | debTick | debNotick | publishUp | publishDown | publishEnter =>
    cases h; exact .inl (.of_eq (by simp) (by simp))
  | _ => cases h; exact (qdecStep_samples _ s).imp_right fun ht => ⟨⟨_, rfl⟩, ht⟩

/-! ### What a request does (R52, R90, R99) -/

/-- The request of a RESET (R152). -/
def resetRequest : Request := .word (.rst 1#1)

theorem resolve_tickRequest (s : State) : resolve tickRequest s = .op .pteTick := rfl

theorem performRequest_tickRequest (s : State) :
    performRequest tickRequest s = .next (observe (.out (out (tick s))) (tick s)) := rfl

/-- What the word of a request can come to. -/
theorem performRequest_word_cases {w : PortWord} {s t : State} (h : performRequest (.word w) s = .next t) :
    t = s ∨ ∃ i, encode i = w ∧ resolve (.word w) s = .op i ∧ exec i s = .next t := by
  cases hd : decode w with
  | op i =>
    have ha : resolve (.word w) s = .op i := by simp [resolve, actionOfWord, hd]
    rw [performRequest, ha] at h
    exact .inr ⟨i, encode_of_decode hd, ha, h⟩
  | quiet =>
    simp only [performRequest, resolve, actionOfWord, hd, perform] at h
    cases h
    exact .inl rfl
  | rejected e =>
    simp only [performRequest, resolve, actionOfWord, hd, perform] at h
    cases h

/-- What QDEC's turn can come to. -/
theorem performRequest_takeSample_cases {s t : State} (h : performRequest .takeSample s = .next t) :
    (s.smpq = [] ∧ t = s) ∨ ∃ x q, s.smpq = x :: q ∧ t = qdecStep x s := by
  cases hq : s.smpq with
  | nil =>
    simp only [performRequest, resolve, hq, perform] at h
    cases h
    exact .inl ⟨rfl, rfl⟩
  | cons x q =>
    simp only [performRequest, resolve, hq, perform_smp] at h
    cases h
    exact .inr ⟨x, q, rfl, rfl⟩

/-- A request other than the pulse tick and RESET transmits at most one byte, and only one that HOST presents. -/
theorem performRequest_transmits {r : Request} {s t : State} (h : performRequest r s = .next t) (hr : r ≠ resetRequest)
    (ht : r ≠ tickRequest) : ∃ b, Transmits b s t ∧ (b ≠ none → presents (resolve r s) s = true) := by
  cases r with
  | word w =>
    rcases performRequest_word_cases h with rfl | ⟨i, rfl, ha, he⟩
    · exact ⟨none, (TransmitsOnly.refl t).toTransmits, fun hb => absurd rfl hb⟩
    · obtain ⟨b, hb, hd⟩ := exec_transmits he (by rintro rfl; exact hr rfl) (by rintro rfl; exact ht rfl)
      refine ⟨b, hb, fun hn => ?_⟩
      obtain ⟨d, rfl⟩ := Option.ne_none_iff_exists'.1 hn
      rw [ha, hd d rfl]
      rfl
  | takeSample =>
    refine ⟨none, ?_, fun hb => absurd rfl hb⟩
    rcases performRequest_takeSample_cases h with ⟨_, rfl⟩ | ⟨x, q, _, rfl⟩ <;> constructor <;> simp
  | hostTurn =>
    obtain ⟨b, hb, hd⟩ := hostTurn_transmitsOnly h
    refine ⟨b, hb.toTransmits, fun hn => ?_⟩
    obtain ⟨d, rfl⟩ := Option.ne_none_iff_exists'.1 hn
    simp [resolve, presents, hd d rfl]

/-- Whether an operation presents a byte does not depend on the state. -/
theorem presents_op_congr (i : Instr) (s u : State) : presents (.op i) u = presents (.op i) s := by
  cases i <;> rfl

theorem presents_word_congr (w : PortWord) (s u : State) :
    presents (resolve (.word w) u) u = presents (resolve (.word w) s) s := by
  simp only [resolve, actionOfWord]
  cases decode w with
  | op i => exact presents_op_congr i s u
  | quiet => rfl
  | rejected e => rfl

theorem presents_takeSample (s : State) : presents (resolve .takeSample s) s = false := by
  have hx : ∀ x : Sample, presents (.op (decodeSmp x)) s = presents (.op (decodeSmp x)) State.reset :=
    fun x => presents_op_congr _ _ _
  have hf : ∀ x : Sample, presents (.op (decodeSmp x)) State.reset = false := by decide
  simp only [resolve]
  split
  · rfl
  · rename_i x _ _
    exact (hx x).trans (hf x)

/-- Whether a request presents a byte depends on HOST alone. -/
theorem presents_resolve_congr {s u : State} (r : Request) (h : u.host = s.host) :
    presents (resolve r u) u = presents (resolve r s) s := by
  cases r with
  | word w => exact presents_word_congr w s u
  | takeSample => rw [presents_takeSample, presents_takeSample]
  | hostTurn => simp only [resolve, presents, presented, h]

/-- A request other than RESET takes the head of SMPQ, or takes none; QDEC's turn takes it where there is one. -/
theorem performRequest_samples {r : Request} {s t : State} (h : performRequest r s = .next t) (hr : r ≠ resetRequest) :
    (SamplesJoin s t ∧ (r = .takeSample → s.smpq = [])) ∨ (asksQdec r = true ∧ HeadTaken s t) := by
  cases r with
  | word w =>
    rcases performRequest_word_cases h with rfl | ⟨i, rfl, ha, he⟩
    · exact .inl ⟨.of_eq rfl rfl, nofun⟩
    · rcases exec_samples he (by rintro rfl; exact hr rfl) with hj | ⟨⟨x, hx⟩, ht⟩
      · exact .inl ⟨hj, nofun⟩
      · exact .inr ⟨by rw [hx]; rfl, ht⟩
  | takeSample =>
    rcases performRequest_takeSample_cases h with ⟨hq, rfl⟩ | ⟨x, q, hq, rfl⟩
    · exact .inl ⟨.of_eq rfl rfl, fun _ => hq⟩
    · exact .inr ⟨rfl, qdecStep_headTaken hq⟩
  | hostTurn =>
    obtain ⟨b, hb, _⟩ := hostTurn_transmitsOnly h
    exact .inl ⟨hb.samplesJoin, nofun⟩

/-! ### What a slot does: the requests it serves, one after the other (R18, R52) -/

/-- Performs requests one after the other. -/
def runRequests : List Request → State → Answer
  | [], s => .next s
  | r :: rest, s => andThen (performRequest r s) (runRequests rest)

theorem runRequests_cons {r : Request} {rest : List Request} {s t : State} (h : runRequests (r :: rest) s = .next t) :
    ∃ u, performRequest r s = .next u ∧ runRequests rest u = .next t := andThen_eq_next h

theorem runRequests_one (r : Request) (s : State) : runRequests [r] s = performRequest r s := by
  simp only [runRequests]
  cases performRequest r s <;> rfl

theorem runRequests_two (r r' : Request) (s : State) :
    runRequests [r, r'] s = andThen (performRequest r s) (performRequest r') := by
  rw [runRequests, funext (runRequests_one r')]

/-- The requests a slot serves: those it asks for, but in a `clk_sys` cycle the divider decides about the pulse tick
(R18, log 26). -/
def servedRequests (x : Slot) (s : State) : List Request :=
  match x with
  | .clock r _ => (if divWraps s then [tickRequest] else []) ++ (if r = tickRequest then [] else [r])
  | .one _ | .sameCycle _ _ | .lines _ | .sample _ => requestsOf x

theorem tickRequest_mem_served {x : Slot} {s : State} (h : ticks x s) : tickRequest ∈ servedRequests x s := by
  cases x with
  | clock r f => simp [servedRequests, show divWraps s = true from h]
  | _ => exact h

theorem mem_served_of_ne_tick {x : Slot} {s : State} {r : Request} (hr : r ≠ tickRequest) :
    r ∈ servedRequests x s ↔ r ∈ requestsOf x := by
  cases x with
  | clock r' f =>
    by_cases h : r' = tickRequest <;> by_cases hw : divWraps s = true <;> simp [servedRequests, requestsOf, h, hw, hr]
  | _ => rfl

theorem countP_served_le (x : Slot) (s : State) : (servedRequests x s).countP asksQdec ≤ qdecRequests x := by
  have ht : asksQdec tickRequest = false := rfl
  cases x with
  | clock r f =>
    by_cases h : r = tickRequest <;> by_cases hw : divWraps s = true <;>
      simp [servedRequests, qdecRequests, requestsOf, h, hw, ht]
  | _ => exact Nat.le_refl _

theorem length_served_le (x : Slot) (s : State) : (servedRequests x s).length ≤ 2 := by
  cases x with
  | clock r f => simp only [servedRequests]; split <;> split <;> simp
  | _ => simp [servedRequests, requestsOf]

/-- With TXQ full at the start of the slot, the pulse tick does not come before a byte that HOST presents (R90). -/
def TickAfterPresented (s : State) (rs : List Request) : Prop :=
  ∀ r, rs = [tickRequest, r] → txFull s = true → presents (resolve r s) s = false

theorem TickAfterPresented.congr {s u : State} {rs : List Request} (h : TickAfterPresented u rs) (hh : u.host = s.host)
    (hf : txFull u = txFull s) : TickAfterPresented s rs :=
  fun r hr hs => by rw [← presents_resolve_congr r hh, h r hr (hf.trans hs)]

theorem goesFirst_tick_presents {b : Action} {s : State} (h : presents b s = true) :
    goesFirst (.op .pteTick) b s = !txFull s := by simp [goesFirst, isTick, h]

theorem goesFirst_presents_tick {a : Action} {s : State} (h : presents a s = true) :
    goesFirst a (.op .pteTick) s = txFull s := by
  have ht : presents (.op .pteTick) s = false := rfl
  have hi : isTick (.op .pteTick) = true := rfl
  simp only [goesFirst, ht, hi, h, Bool.and_false, Bool.false_eq_true, if_false, Bool.and_self, if_true]

/-- Two operations of one cycle are the two in one of the two orders, and in that of R90 with TXQ full. -/
theorem performBoth_eq_next {r₁ r₂ : Request} {s t : State} (h : performBoth r₁ r₂ s = .next t) :
    ∃ n rs, rs.Perm [r₁, r₂] ∧ TickAfterPresented s rs ∧ runRequests rs { s with draws := n } = .next t := by
  have hd : ∃ n, (if drawsOrder (resolve r₁ s) (resolve r₂ s) s then { s with draws := s.draws + 1 } else s) =
      { s with draws := n } := by
    split
    · exact ⟨_, rfl⟩
    · exact ⟨_, rfl⟩
  obtain ⟨n, hn⟩ := hd
  simp only [performBoth, hn] at h
  split at h
  · rename_i hg
    refine ⟨n, [r₁, r₂], .refl _, fun r hr hf => Bool.eq_false_of_not_eq_true fun hp => ?_, (runRequests_two ..).trans h⟩
    obtain ⟨rfl, rfl⟩ : r₁ = tickRequest ∧ r₂ = r := by simpa using hr
    rw [resolve_tickRequest, goesFirst_tick_presents hp, hf] at hg
    cases hg
  · rename_i hg
    refine ⟨n, [r₂, r₁], .swap .., fun r hr hf => Bool.eq_false_of_not_eq_true fun hp => ?_, (runRequests_two ..).trans h⟩
    obtain ⟨rfl, rfl⟩ : r₂ = tickRequest ∧ r₁ = r := by simpa using hr
    exact hg (by rw [resolve_tickRequest, goesFirst_presents_tick hp, hf])

/-- What a slot does before it serves a request: it observes, counts the cycle, uses a free value, or sets the lines. -/
structure SlotOpens (s u : State) : Prop extends TransmitsOnly none s u where
  host : u.host = s.host

theorem SlotOpens.txFull {s u : State} (h : SlotOpens s u) : txFull u = txFull s := by
  simp [Machine.txFull, h.txq, h.cfg]

theorem SlotOpens.refl (s : State) : SlotOpens s s := ⟨.refl s, rfl⟩

/-- `smp_pending` is shown, and DIVCNT and the count of free values have some new value. -/
theorem slotOpens_cycle (s : State) (c n : Nat) : SlotOpens s { showPending s with divcnt := c, draws := n } :=
  ⟨⟨by constructor <;> simp [acceptedBytes], rfl, rfl⟩, rfl⟩

/-- A `clk_sys` cycle serves its operation, and the pulse tick where the divider wraps. -/
theorem clockCycle_eq_next {r : Request} {f : Bool} {s t : State} (h : clockCycle r f s = .next t) :
    ∃ c n rs, rs.Perm (servedRequests (.clock r f) s) ∧ TickAfterPresented s rs ∧
      runRequests rs { s with divcnt := c, draws := n } = .next t := by
  rcases clockCycle_cases r f s with ⟨hw, ⟨hr, e⟩ | ⟨hr, e⟩⟩ | ⟨hw, ⟨hr, e⟩ | ⟨hr, e⟩⟩ <;> rw [e] at h
  · have hs : servedRequests (.clock r f) s = [tickRequest] := by simp [servedRequests, (divWraps_iff s).2 hw, hr]
    exact ⟨0, s.draws, [tickRequest], by rw [hs], nofun, (runRequests_one ..).trans h⟩
  · have hs : servedRequests (.clock r f) s = [tickRequest, r] := by simp [servedRequests, (divWraps_iff s).2 hw, hr]
    split at h
    · obtain ⟨n, rs, hp, ho, hrun⟩ := performBoth_eq_next h
      exact ⟨0, n, rs, by rw [hs]; exact hp, ho.congr rfl rfl, hrun⟩
    · obtain ⟨n, rs, hp, ho, hrun⟩ := performBoth_eq_next h
      exact ⟨0, n, rs, by rw [hs]; exact hp.trans (.swap ..), ho.congr rfl rfl, hrun⟩
  · have hs : servedRequests (.clock r f) s = [] := by simp [servedRequests, divWraps, hw, hr]
    exact ⟨_, s.draws, [], by rw [hs], nofun, h⟩
  · have hs : servedRequests (.clock r f) s = [r] := by simp [servedRequests, divWraps, hw, hr]
    exact ⟨_, s.draws, [r], by rw [hs], nofun, (runRequests_one ..).trans h⟩

/-- Everything a slot can do: it takes in a raw sample, or it opens and serves its requests in some order. -/
theorem runSlot_eq_next {x : Slot} {s t : State} (h : runSlot x s = .next t) :
    (∃ y, x = .sample y ∧ t = pushSample y s) ∨
    ∃ u rs, SlotOpens s u ∧ rs.Perm (servedRequests x s) ∧ TickAfterPresented s rs ∧ runRequests rs u = .next t := by
  cases x with
  | one r => exact .inr ⟨s, [r], .refl s, .refl _, nofun, (runRequests_one r s).trans h⟩
  | sameCycle r₁ r₂ =>
    obtain ⟨n, rs, hp, ho, hrun⟩ := performBoth_eq_next h
    exact .inr ⟨_, rs, slotOpens_cycle s s.divcnt n, hp, ho.congr rfl rfl, hrun⟩
  | clock r f =>
    obtain ⟨c, n, rs, hp, ho, hrun⟩ := clockCycle_eq_next h
    exact .inr ⟨_, rs, slotOpens_cycle s c n, hp, ho.congr rfl rfl, hrun⟩
  | lines l => exact .inr ⟨t, [], by cases h; exact ⟨⟨by constructor <;> simp, rfl, rfl⟩, rfl⟩, .refl _, nofun, rfl⟩
  | sample y => cases h; exact .inl ⟨y, rfl, rfl⟩

/-! ### The line's future, tick by tick (R57, R70, R87) -/

theorem pulses_pos {p : Config.Params} (hl : p.Legal) (b : Bool) : 1 ≤ p.pulses b := by
  obtain ⟨_, _, h0, h1, _⟩ := hl
  cases b <;> assumption

theorem pulseTrain_succ (p : Config.Params) (n : Nat) :
    pulseTrain p (n + 1) = List.replicate p.tHi true ++ (List.replicate p.tLo false ++ pulseTrain p n) := by
  simp [pulseTrain, pulse, List.replicate_succ]

/-- The eight bit frames of a byte just loaded are its byte frame (R71). -/
theorem framesLeft_eight (p : Config.Params) (d : Byte) : framesLeft p 8 d = wave p d := by
  cases h : p.msbFirst <;> simp [framesLeft, wave, bitOrder, h, BitVec.msb_eq_getLsbD_last]

theorem replicate_eq_cons {α : Type} {n : Nat} (h : 1 ≤ n) (a : α) :
    List.replicate n a = a :: List.replicate (n - 1) a := by
  conv_lhs => rw [← Nat.sub_add_cancel h, List.replicate_succ]

/-- `start_bit` shows the first level of the next bit frame and leaves the others to come (R83). -/
theorem restOfByte_startBit {s : State} (hl : s.cfg.Legal) (sr : Byte) {nb : BitVec 4} (hn : nb ≠ 0#4) :
    framesLeft s.cfg nb.toNat sr = true :: restOfByte (startBit sr nb s) := by
  obtain ⟨_, _, _, _, _, hHi, _⟩ := id hl
  have hnb : nb.toNat = (nb - 1).toNat + 1 := by bv_omega
  rw [hnb, framesLeft, bitFrame,
    ← Nat.sub_add_cancel (pulses_pos hl (if s.cfg.msbFirst then sr.msb else sr.getLsbD 0)), pulseTrain_succ,
    replicate_eq_cons hHi]
  simp [restOfByte]

/-- Loading a byte shows the first level of its frame and leaves the others to come (R82, R86). -/
theorem lineFuture_loadByte {s : State} (hl : s.cfg.Legal) (d : Byte) (rest : List Byte) :
    waves s.cfg (d :: rest) = true :: lineFuture (startBit d 8#4 { s with txq := rest }) := by
  have hb := restOfByte_startBit (s := { s with txq := rest }) hl d (nb := 8#4) (by decide)
  rw [waves, List.flatMap_cons, ← framesLeft_eight]
  exact congrArg (· ++ waves s.cfg rest) hb

/-- PTE_TICK shows the next level of the line's future and takes it off; where there is none it leaves the engine at
rest. -/
theorem tick_lineFuture {s : State} (hl : s.cfg.Legal) :
    (lineFuture s = out (tick s) :: lineFuture (tick s) ∧ (tick s).ph ≠ .idle) ∨
    (lineFuture s = [] ∧ txBusy (tick s) = false) := by
  obtain ⟨_, _, _, _, _, hHi, hLo, hGap, _⟩ := id hl
  rcases tick_cases s with ⟨hp, hq, e⟩ | ⟨d, rest, hp, hq, e⟩ | ⟨hp, ht, e⟩ | ⟨hp, ht, e⟩ | ⟨hp, ht, hn, e⟩ |
    ⟨hp, ht, hn, e⟩ | ⟨hp, ht, hn, e⟩ | ⟨d, rest, hp, ht, hn, hq, e⟩ | ⟨hp, ht, hn, hq, e⟩ <;> rw [e]
  · exact .inr ⟨by simp [lineFuture, restOfByte, waves, hp, hq], (txBusy_eq_false_iff s).2 ⟨hq, hp⟩⟩
  · refine .inl ⟨?_, nofun⟩
    rw [lineFuture, hq, lineFuture_loadByte hl]
    simp [restOfByte, hp, out]
  · have ht' : 1 ≤ s.tmr - 1 := by omega
    refine .inl ⟨?_, hp⟩
    cases hs : s.ph with
    | idle => exact absurd hs hp
    | _ => simp [lineFuture, restOfByte, out, hs, replicate_eq_cons ht']
  · refine .inl ⟨?_, nofun⟩
    simp [lineFuture, restOfByte, out, hp, replicate_eq_cons hLo, Nat.sub_eq_zero_of_le ht]
  · refine .inl ⟨?_, nofun⟩
    rw [lineFuture, restOfByte, hp, ← Nat.sub_add_cancel hn]
    simp [lineFuture, restOfByte, out, pulseTrain_succ, replicate_eq_cons hHi, Nat.sub_eq_zero_of_le ht]
  · refine .inl ⟨?_, nofun⟩
    simp [lineFuture, restOfByte, out, hp, hn, pulseTrain, silence, replicate_eq_cons hGap, Nat.sub_eq_zero_of_le ht]
  · refine .inl ⟨?_, nofun⟩
    simp [lineFuture, restOfByte, hp, out, Nat.sub_eq_zero_of_le ht, restOfByte_startBit hl _ hn]
  · refine .inl ⟨?_, nofun⟩
    rw [lineFuture, hq, lineFuture_loadByte hl]
    simp [restOfByte, hp, hn, out, framesLeft, Nat.sub_eq_zero_of_le ht]
  · refine .inr ⟨?_, (txBusy_eq_false_iff _).2 ⟨hq, rfl⟩⟩
    simp [lineFuture, restOfByte, waves, framesLeft, hp, hn, hq, Nat.sub_eq_zero_of_le ht]

/-! ### How long the transmitter stays busy (R88, R93) -/

/-- How many pulse ticks TX_BUSY lasts if nothing more is accepted: the line's future, and the tick that falls idle. -/
def drainTicks (s : State) : Nat := if txBusy s then (lineFuture s).length + 1 else 0

theorem drainTicks_eq_zero_iff (s : State) : drainTicks s = 0 ↔ txBusy s = false := by
  cases h : txBusy s <;> simp [drainTicks, h]

theorem drainTicks_of_busy {s : State} (h : txBusy s = true) : drainTicks s = (lineFuture s).length + 1 := if_pos h

theorem lineFuture_of_quiet {s : State} (h : txBusy s = false) : lineFuture s = [] := by
  obtain ⟨hq, hp⟩ := (txBusy_eq_false_iff s).1 h
  simp [lineFuture, restOfByte, waves, hq, hp]

/-- Each pulse tick counts (R88). -/
theorem drainTicks_tick {s : State} (hl : s.cfg.Legal) : drainTicks (tick s) = drainTicks s - 1 := by
  rcases tick_lineFuture hl with ⟨hf, hp⟩ | ⟨hf, hb⟩
  · have hs : txBusy s = true := by
      by_contra hs
      rw [lineFuture_of_quiet (Bool.eq_false_of_not_eq_true hs)] at hf
      cases hf
    rw [drainTicks_of_busy ((txBusy_iff _).2 (.inr hp)), drainTicks_of_busy hs, hf]
    rfl
  · rw [(drainTicks_eq_zero_iff _).2 hb, drainTicks, hf]
    split <;> rfl

theorem Transmits.txBusy {s t : State} (h : Transmits none s t) : txBusy t = txBusy s := by
  simp [Machine.txBusy, h.txq, h.ph]

theorem Transmits.txFull {s t : State} (h : Transmits none s t) : txFull t = txFull s := by
  simp [Machine.txFull, h.txq, h.cfg]

theorem Transmits.lineFuture {s t : State} (h : Transmits none s t) : lineFuture t = lineFuture s := by
  simp [Machine.lineFuture, restOfByte, h.txq, h.ph, h.tmr, h.np, h.nb, h.sr, h.cfg]

theorem Transmits.drainTicks {s t : State} (h : Transmits none s t) : drainTicks t = drainTicks s := by
  rw [Machine.drainTicks, Machine.drainTicks, h.txBusy, h.lineFuture]

/-- From `s` to `t` bytes may be accepted; if none is, TX_BUSY lasts no longer than before, and less long where
`ticked` says that there was a pulse tick. -/
structure Drains (ticked : Prop) (s t : State) : Prop where
  cfg : t.cfg = s.cfg
  accepted : acceptedBytes s.trace <+: acceptedBytes t.trace
  le : acceptedBytes t.trace = acceptedBytes s.trace → drainTicks t ≤ drainTicks s
  tick_le : ticked → acceptedBytes t.trace = acceptedBytes s.trace → drainTicks t ≤ drainTicks s - 1

theorem Transmits.drains {b : Option Byte} {s t : State} (h : Transmits b s t) : Drains False s t where
  cfg := h.cfg
  accepted := ⟨_, h.accepted.symm⟩
  le ha := by
    obtain rfl : b = none := by simpa [ha] using h.accepted
    exact h.drainTicks.le
  tick_le := False.elim

/-- Nothing accepted on the way means nothing accepted in either part. -/
theorem accepted_eq_of_begins {a b c : List Byte} (hab : a <+: b) (hbc : b <+: c) (h : c = a) : b = a ∧ c = b := by
  subst h
  have hb : b = c := hbc.eq_of_length_le hab.length_le
  exact ⟨hb, hb.symm⟩

theorem Drains.trans {p q : Prop} {s u t : State} (h : Drains p s u) (h' : Drains q u t) : Drains (p ∨ q) s t where
  cfg := h'.cfg.trans h.cfg
  accepted := h.accepted.trans h'.accepted
  le ha := by
    obtain ⟨hu, ht⟩ := accepted_eq_of_begins h.accepted h'.accepted ha
    exact (h'.le ht).trans (h.le hu)
  tick_le hpq ha := by
    obtain ⟨hu, ht⟩ := accepted_eq_of_begins h.accepted h'.accepted ha
    rcases hpq with hp | hq
    · exact (h'.le ht).trans (h.tick_le hp hu)
    · exact (h'.tick_le hq ht).trans (Nat.sub_le_sub_right (h.le hu) 1)

theorem Drains.imp {p q : Prop} {s t : State} (h : Drains p s t) (hqp : q → p) : Drains q s t :=
  { h with tick_le := fun hq => h.tick_le (hqp hq) }

theorem tick_drains {s : State} (hl : s.cfg.Legal) : Drains True s (observe (.out (out (tick s))) (tick s)) := by
  have hd : drainTicks (observe (.out (out (tick s))) (tick s)) = drainTicks s - 1 := drainTicks_tick hl
  have ha : acceptedBytes (observe (.out (out (tick s))) (tick s)).trace = acceptedBytes s.trace := by
    simp [acceptedBytes]
  exact ⟨tick_cfg s, by rw [ha], fun _ => by omega, fun _ _ => hd.le⟩

theorem performRequest_drains {r : Request} {s t : State} (hl : s.cfg.Legal) (h : performRequest r s = .next t)
    (hr : r ≠ resetRequest) : Drains (tickRequest = r) s t := by
  by_cases ht : r = tickRequest
  · subst ht
    rw [performRequest_tickRequest] at h
    cases h
    exact (tick_drains hl).imp fun _ => trivial
  · obtain ⟨b, hb, _⟩ := performRequest_transmits h hr ht
    exact hb.drains.imp fun he => ht he.symm

theorem runRequests_drains {rs : List Request} {s t : State} (hl : s.cfg.Legal) (h : runRequests rs s = .next t)
    (hr : resetRequest ∉ rs) : Drains (tickRequest ∈ rs) s t := by
  induction rs generalizing s with
  | nil => cases h; exact (TransmitsOnly.refl t).drains.imp fun hm => absurd hm List.not_mem_nil
  | cons r rest ih =>
    obtain ⟨hr₁, hr₂⟩ := not_or.1 (mt List.mem_cons.2 hr)
    obtain ⟨u, hu, ht⟩ := runRequests_cons h
    have hd := performRequest_drains hl hu (Ne.symm hr₁)
    exact (hd.trans (ih (hd.cfg ▸ hl) ht hr₂)).imp List.mem_cons.1

theorem resetRequest_notMem_perm {x : Slot} {s : State} {rs : List Request} (hp : rs.Perm (servedRequests x s))
    (hr : resetRequest ∉ requestsOf x) : resetRequest ∉ rs := by
  rwa [hp.mem_iff, mem_served_of_ne_tick (by decide)]

/-- A slot without RESET: TX_BUSY gets shorter at a pulse tick and never longer, except by accepted bytes. -/
theorem runSlot_drains {x : Slot} {s t : State} (hl : s.cfg.Legal) (h : runSlot x s = .next t)
    (hr : resetRequest ∉ requestsOf x) : Drains (ticks x s) s t := by
  rcases runSlot_eq_next h with ⟨y, rfl, rfl⟩ | ⟨u, rs, hu, hp, _, hrun⟩
  · have hk : Transmits none s (pushSample y s) := by constructor <;> simp
    exact hk.drains.imp nofun
  · have hd := hu.drains.trans (runRequests_drains (hu.cfg ▸ hl) hrun (resetRequest_notMem_perm hp hr))
    exact hd.imp fun ht => .inr (hp.mem_iff.2 (tickRequest_mem_served ht))

/-! ### A slot that begins with TXQ full accepts no byte (R78, R90) -/

theorem performRequest_accepts_none {r : Request} {s t : State} (h : performRequest r s = .next t) (hr : r ≠ resetRequest)
    (hb : txFull s = true ∨ presents (resolve r s) s = false) : acceptedBytes t.trace = acceptedBytes s.trace := by
  by_cases ht : r = tickRequest
  · subst ht
    rw [performRequest_tickRequest] at h
    cases h
    simp [acceptedBytes]
  · obtain ⟨b, hk, hd⟩ := performRequest_transmits h hr ht
    have hn : b = none := by
      by_contra hn
      rcases hb with hf | hp
      · simp [hk.room hn] at hf
      · simp [hd hn] at hp
    subst hn
    simpa using hk.accepted

theorem performRequest_txFull {r : Request} {s t : State} (h : performRequest r s = .next t) (hr : r ≠ resetRequest)
    (ht : r ≠ tickRequest) (hf : txFull s = true) : txFull t = true := by
  obtain ⟨b, hk, _⟩ := performRequest_transmits h hr ht
  have hn : b = none := by
    by_contra hn
    simp [hk.room hn] at hf
  subst hn
  rw [hk.txFull, hf]

/-- The second of two requests finds TXQ full as the first did, or comes after the pulse tick and presents nothing. -/
theorem runRequests_accepts_none {rs : List Request} {s t : State} (h : runRequests rs s = .next t)
    (hr : resetRequest ∉ rs) (hlen : rs.length ≤ 2) (ho : TickAfterPresented s rs) (hf : txFull s = true) :
    acceptedBytes t.trace = acceptedBytes s.trace := by
  match rs, h, hr, hlen, ho with
  | [], h, _, _, _ => cases h; rfl
  | [r], h, hr, _, _ =>
    rw [runRequests_one] at h
    exact performRequest_accepts_none h (by simpa using Ne.symm (List.ne_of_not_mem_cons hr)) (.inl hf)
  | [r, r'], h, hr, _, ho =>
    obtain ⟨hr₁, hr₂⟩ : resetRequest ≠ r ∧ resetRequest ≠ r' := by simpa using hr
    obtain ⟨u, hu, ht⟩ := runRequests_cons h
    rw [runRequests_one] at ht
    rw [← performRequest_accepts_none hu hr₁.symm (.inl hf)]
    refine performRequest_accepts_none ht hr₂.symm ?_
    by_cases hk : r = tickRequest
    · subst hk
      rw [performRequest_tickRequest] at hu
      cases hu
      exact .inr ((presents_resolve_congr r' (tick_host s)).trans (ho r' rfl hf))
    · exact .inl (performRequest_txFull hu hr₁.symm hk hf)

theorem runSlot_accepts_none {x : Slot} {s t : State} (h : runSlot x s = .next t) (hr : resetRequest ∉ requestsOf x)
    (hf : txFull s = true) : acceptedBytes t.trace = acceptedBytes s.trace := by
  rcases runSlot_eq_next h with ⟨y, rfl, rfl⟩ | ⟨u, rs, hu, hp, ho, hrun⟩
  · simp
  · have hlen : rs.length ≤ 2 := hp.length_eq ▸ length_served_le x s
    rw [runRequests_accepts_none hrun (resetRequest_notMem_perm hp hr) hlen (ho.congr hu.host.symm hu.txFull.symm)
      (hu.txFull.trans hf)]
    simpa using hu.accepted

/-! ### The samples a slot takes (R99, R101) -/

/-- From `s` to `t` the first `k` samples of SMPQ are taken, LAST_SAMPLE holding the last of them, and samples may join. -/
def TakenInOrder (k : Nat) (s t : State) : Prop :=
  ∃ new, t.smpq = s.smpq.drop k ++ new ∧ (1 ≤ k → s.smpq[k - 1]? = some t.lastSample)

theorem SamplesJoin.takenInOrder {s t : State} (h : SamplesJoin s t) : TakenInOrder 0 s t := by
  obtain ⟨new, hq, _⟩ := h
  exact ⟨new, hq, nofun⟩

theorem SamplesJoin.trans {s u t : State} (h : SamplesJoin s u) (h' : SamplesJoin u t) : SamplesJoin s t := by
  obtain ⟨new, hq, hl⟩ := h
  obtain ⟨new', hq', hl'⟩ := h'
  exact ⟨new ++ new', by rw [hq', hq, List.append_assoc], hl'.trans hl⟩

theorem HeadTaken.takenInOrder {s t : State} (h : HeadTaken s t) : TakenInOrder 1 s t :=
  ⟨[], by rw [h, List.append_nil]; rfl, fun _ => by rw [h]; rfl⟩

theorem HeadTaken.join {s u t : State} (h : HeadTaken s u) (h' : SamplesJoin u t) : TakenInOrder 1 s t := by
  obtain ⟨new, hq, hl⟩ := h'
  exact ⟨new, by rw [hq, h]; rfl, fun _ => by rw [h, hl]; rfl⟩

theorem HeadTaken.twice {s u t : State} (h : HeadTaken s u) (h' : HeadTaken u t) : TakenInOrder 2 s t := by
  have hs : s.smpq = u.lastSample :: t.lastSample :: t.smpq := h.trans (congrArg _ h')
  exact ⟨[], by simp [hs], fun _ => by simp [hs]⟩

/-- A sample that joins does not come before the head. -/
theorem SamplesJoin.headTaken {s u t : State} (hs : s.smpq ≠ []) (h : SamplesJoin s u) (h' : HeadTaken u t) :
    TakenInOrder 1 s t := by
  obtain ⟨new, hq, _⟩ := h
  obtain ⟨x, q, hx⟩ := List.exists_cons_of_ne_nil hs
  have he : x :: (q ++ new) = t.lastSample :: t.smpq := by rw [← List.cons_append, ← hx, ← hq]; exact h'
  obtain ⟨rfl, hq'⟩ := List.cons.inj he
  exact ⟨new, by rw [hx, ← hq']; rfl, fun _ => by rw [hx]; rfl⟩

theorem SamplesJoin.ne_nil {s t : State} (hs : s.smpq ≠ []) (h : SamplesJoin s t) : t.smpq ≠ [] := by
  obtain ⟨new, hq, _⟩ := h
  simp [hq, hs]

/-- At most two requests take as many samples as they ask for, at least one where QDEC has its turn. -/
theorem runRequests_samples {rs : List Request} {s t : State} (h : runRequests rs s = .next t)
    (hr : resetRequest ∉ rs) (hlen : rs.length ≤ 2) (hs : s.smpq ≠ []) :
    ∃ k, k ≤ rs.countP asksQdec ∧ TakenInOrder k s t ∧ (.takeSample ∈ rs → 1 ≤ k) := by
  match rs, h, hr, hlen with
  | [], h, _, _ => cases h; exact ⟨0, Nat.zero_le _, (SamplesJoin.of_eq rfl rfl).takenInOrder, nofun⟩
  | [r], h, hr, _ =>
    rw [runRequests_one] at h
    rcases performRequest_samples h (by simpa using Ne.symm (List.ne_of_not_mem_cons hr)) with ⟨hj, ht⟩ | ⟨ha, ht⟩
    · exact ⟨0, Nat.zero_le _, hj.takenInOrder, fun hm => absurd (ht (List.mem_singleton.1 hm).symm) hs⟩
    · exact ⟨1, by simp [ha], ht.takenInOrder, fun _ => le_rfl⟩
  | [r, r'], h, hr, _ =>
    obtain ⟨hr₁, hr₂⟩ : resetRequest ≠ r ∧ resetRequest ≠ r' := by simpa using hr
    obtain ⟨u, hu, hv⟩ := runRequests_cons h
    rw [runRequests_one] at hv
    rcases performRequest_samples hu hr₁.symm with ⟨hj, ht⟩ | ⟨ha, ht⟩ <;>
      rcases performRequest_samples hv hr₂.symm with ⟨hj', ht'⟩ | ⟨ha', ht'⟩
    · refine ⟨0, Nat.zero_le _, (hj.trans hj').takenInOrder, fun hm => ?_⟩
      rcases List.mem_pair.1 hm with he | he
      · exact absurd (ht he.symm) hs
      · exact absurd (ht' he.symm) (hj.ne_nil hs)
    · exact ⟨1, by simp [List.countP_cons, ha'], hj.headTaken hs ht', fun _ => le_rfl⟩
    · exact ⟨1, by simp [List.countP_cons, ha], ht.join hj', fun _ => le_rfl⟩
    · exact ⟨2, by simp [ha, ha'], ht.twice ht', fun _ => by omega⟩

theorem TakenInOrder.congr {k : Nat} {s u t : State} (h : TakenInOrder k u t) (hq : u.smpq = s.smpq) :
    TakenInOrder k s t := by
  unfold TakenInOrder at h ⊢
  rwa [← hq]

/-- A slot without RESET takes as many samples as it has QDEC_STEPs for, at least one where QDEC has its turn. -/
theorem runSlot_samples {x : Slot} {s t : State} (h : runSlot x s = .next t) (hr : resetRequest ∉ requestsOf x)
    (hs : s.smpq ≠ []) :
    ∃ k, k ≤ qdecRequests x ∧ TakenInOrder k s t ∧ (.takeSample ∈ requestsOf x → 1 ≤ k) := by
  rcases runSlot_eq_next h with ⟨y, rfl, rfl⟩ | ⟨u, rs, hu, hp, _, hrun⟩
  · exact ⟨0, Nat.zero_le _, (pushSample_joins y s).takenInOrder, nofun⟩
  · have hlen : rs.length ≤ 2 := hp.length_eq ▸ length_served_le x s
    obtain ⟨k, hk, ht, h1⟩ :=
      runRequests_samples hrun (resetRequest_notMem_perm hp hr) hlen (hu.smpq.symm ▸ hs)
    refine ⟨k, ?_, ht.congr hu.smpq, fun hm => h1 (hp.mem_iff.2 ((mem_served_of_ne_tick (by decide)).2 hm))⟩
    calc k ≤ rs.countP asksQdec := hk
      _ = (servedRequests x s).countP asksQdec := hp.countP_eq _
      _ ≤ qdecRequests x := countP_served_le x s

/-! ### Fair runs (R8, R93, R101) -/

section FairRun

variable {slots : Nat → Slot} {run : Nat → State} {n : Nat}

theorem drainTicks_run_le (hrun : IsRun slots run) (hr : NoResetFrom slots n)
    (ha : ∀ m, n ≤ m → acceptedBytes (run (m + 1)).trace = acceptedBytes (run m).trace) {m : Nat} (hm : n ≤ m) :
    drainTicks (run m) ≤ drainTicks (run n) := by
  induction m, hm using Nat.le_induction with
  | base => exact le_rfl
  | succ m hm ih => exact ((runSlot_drains (hrun m).1 (hrun m).2 (hr m hm)).le (ha m hm)).trans ih

/-- R93: with nothing more accepted, TX_BUSY falls. By induction on how many pulse ticks it lasts. -/
theorem txBusy_falls (hrun : IsRun slots run) (hfair : WeaklyFair slots run) (hr : NoResetFrom slots n)
    (ha : ∀ m, n ≤ m → acceptedBytes (run (m + 1)).trace = acceptedBytes (run m).trace) :
    ∃ m, n ≤ m ∧ txBusy (run m) = false := by
  induction hd : drainTicks (run n) using Nat.strong_induction_on generalizing n with
  | _ d ih =>
    by_cases h0 : d = 0
    · exact ⟨n, le_rfl, (drainTicks_eq_zero_iff _).1 (hd.trans h0)⟩
    · obtain ⟨m, hm, htick⟩ := hfair.pte n
      have hle : drainTicks (run m) ≤ d := hd ▸ drainTicks_run_le hrun hr ha hm
      have hlt := (runSlot_drains (hrun m).1 (hrun m).2 (hr m hm)).tick_le htick (ha m hm)
      obtain ⟨k, hk, hb⟩ := ih (drainTicks (run (m + 1))) (by omega) (n := m + 1)
        (fun j hj => hr j (by omega)) (fun j hj => ha j (by omega)) rfl
      exact ⟨k, by omega, hb⟩

/-- R93: TXQ gets room. While it has none no byte is accepted, and then the transmitter would drain. -/
theorem txFull_falls (hrun : IsRun slots run) (hfair : WeaklyFair slots run) (hr : NoResetFrom slots n) :
    ∃ m, n ≤ m ∧ txFull (run m) = false := by
  by_contra hno
  have hfull : ∀ m, n ≤ m → txFull (run m) = true := fun m hm => by
    by_contra hf
    exact hno ⟨m, hm, Bool.eq_false_of_not_eq_true hf⟩
  obtain ⟨m, hm, hb⟩ := txBusy_falls hrun hfair hr fun m hm => runSlot_accepts_none (hrun m).2 (hr m hm) (hfull m hm)
  obtain ⟨hq, _⟩ := (txBusy_eq_false_iff _).1 hb
  obtain ⟨_, hdepth, _⟩ := (hrun m).1
  have hlen := (txFull_iff _).1 (hfull m hm)
  rw [hq] at hlen
  exact absurd hlen.symm (Nat.ne_of_gt hdepth)

/-- While no slot takes a sample, SMPQ goes on beginning with the samples it held. -/
theorem smpq_begins_of_none_taken (hrun : IsRun slots run) (hr : NoResetFrom slots n) (hs : (run n).smpq ≠ [])
    (hno : ∀ m k, n ≤ m → (run n).smpq <+: (run m).smpq → 1 ≤ k → k ≤ qdecRequests (slots m) →
      ¬ TakenInOrder k (run m) (run (m + 1))) {m : Nat} (hm : n ≤ m) : (run n).smpq <+: (run m).smpq := by
  induction m, hm using Nat.le_induction with
  | base => exact List.prefix_rfl
  | succ m hm ih =>
    obtain ⟨k, hk, ht, _⟩ := runSlot_samples (hrun m).2 (hr m hm) (ih.ne_nil hs)
    obtain rfl : k = 0 := by
      by_contra h0
      exact hno m k hm ih (Nat.pos_of_ne_zero h0) hk ht
    obtain ⟨new, hq, _⟩ := ht
    exact ih.trans ⟨new, hq.symm⟩

/-- R101: the samples in SMPQ are taken in order. While none is, SMPQ stays nonempty, so QDEC gets its turn. -/
theorem samples_taken (hrun : IsRun slots run) (hfair : WeaklyFair slots run) (hr : NoResetFrom slots n)
    (hs : (run n).smpq ≠ []) : ∃ m k, n ≤ m ∧ (run n).smpq <+: (run m).smpq ∧ 1 ≤ k ∧ k ≤ qdecRequests (slots m) ∧
      TakenInOrder k (run m) (run (m + 1)) := by
  by_contra hno
  have hpre : ∀ m, n ≤ m → (run n).smpq <+: (run m).smpq := fun m hm =>
    smpq_begins_of_none_taken hrun hr hs (fun m k hm hp h1 hk ht => hno ⟨m, k, hm, hp, h1, hk, ht⟩) hm
  obtain ⟨m, hm, hask⟩ := hfair.qdec n fun m hm => by
    simpa [smpPending, List.length_pos_iff] using (hpre m hm).ne_nil hs
  obtain ⟨k, hk, ht, h1⟩ := runSlot_samples (hrun m).2 (hr m hm) ((hpre m hm).ne_nil hs)
  exact hno ⟨m, k, hm, hpre m hm, h1 hask, hk, ht⟩

end FairRun

/-- Settles O49: a busy transmitter drains because each pulse tick shortens what is left, TXQ gets room because a slot
that begins with it full accepts nothing, and the head of SMPQ is taken because SMPQ is nonempty until it is. -/
theorem fairRunsReleaseWaits : Obligations.FairRunsReleaseWaits := by
  intro slots run n hrun _ hfair hr
  refine ⟨txFull_falls hrun hfair hr, txBusy_falls hrun hfair hr, fun x q hxq => ?_⟩
  obtain ⟨m, k, hm, hp, h1, hk, new, hq, hl⟩ := samples_taken hrun hfair hr (by simp [hxq])
  exact ⟨m, k, new, hm, hxq ▸ hp, h1, hk, hq, hl h1⟩

end Sys2Proof.Machine
end

section
/-! PROOFS. The state (10_state.md). Everything an operation, a turn of HOST and a step can do to it; with these the
invariants of R38, and who writes which element (R11 to R31). -/

namespace Sys2Proof.Machine

open Sys2Proof.Config (Request Slot)

/-! ### Everything HOST can do to the state (R78, R80, R115, R130) -/

/-- What HOST's operations and turns come to: HOST goes on or waits, and observes; it hands over a byte where TXQ has
room; or it takes an event. -/
inductive HostEffect (s : State) : State → Prop
  | goesOn (p : HostProc) (tr : List Observation) (hp : s.cfg.Legal → HostOk s.host → HostOk p) :
    HostEffect s { s with host := p, trace := tr }
  | sends (d : Byte) (p : HostProc) (tr : List Observation) (room : txFull s = false)
    (hp : s.cfg.Legal → HostOk s.host → HostOk p) : HostEffect s { s with txq := s.txq ++ [d], host := p, trace := tr }
  | polls (tr : List Observation) : HostEffect s { takeEvent s with trace := tr }

theorem HostEffect.refl (s : State) : HostEffect s s := .goesOn s.host s.trace fun _ => id

theorem HostEffect.observes (s : State) (tr : List Observation) : HostEffect s { s with trace := tr } :=
  .goesOn s.host tr fun _ => id

theorem presentByte_effect (d : Byte) (s : State) : HostEffect s (presentByte d s) := by
  unfold presentByte
  split
  · exact .goesOn (.enqueue d) s.trace fun _ _ => trivial
  · exact .sends d .idle _ (Bool.eq_false_of_not_eq_true ‹_›) fun _ _ => trivial

theorem drainReturns_effect (s : State) : HostEffect s (drainReturns s) := .goesOn .idle _ fun _ _ => trivial

theorem whenHostFree_effect {s t u : State} (hu : HostEffect s u) (h : whenHostFree s (.next u) = .next t) :
    HostEffect s t := by
  rcases whenHostFree_cases s (.next u) with ⟨_, e⟩ | ⟨_, e⟩ <;> rw [e] at h <;> cases h
  · exact hu
  · exact .refl s

/-- A SEND begins with an end marker ahead of it and a payload that is not empty (R126, R129). -/
theorem beginSend_effect {name buf : List Byte} {n : Nat} {s : State} (hb : ImageOk s.cfg buf n) (hn : NameOk name) :
    HostEffect s (beginSend name buf n s) := by
  rcases beginSend_cases name buf n s with ⟨c, _, e⟩ | ⟨L, hv, e⟩ <;> rw [e]
  · exact .observes s _
  · refine .goesOn _ s.trace fun hl _ => ?_
    obtain ⟨hsrc, _, _, _, _, _, _, _, _, _, hset⟩ := hl
    obtain ⟨_, _, h1, hLn, _⟩ := (validateImage_eq_ok_iff hsrc buf n L).1 hv
    have hbuf : L ≤ buf.length := hLn.trans hb.2
    exact ⟨hset, hn, List.ne_nil_of_length_pos (by rw [List.length_take]; omega)⟩

/-- Everything an operation of HOST can do. -/
theorem exec_host_effect {i : Instr} {s t : State} (h : exec i s = .next t) (hi : agentOf i = .host) : HostEffect s t := by
  cases i with
  | enqueue d =>
    change execEnqueue d s = .next t at h
    rcases execEnqueue_cases d s with ⟨_, e⟩ | ⟨_, e⟩ | ⟨_, _, _, e⟩ <;> rw [e] at h <;> cases h
    · exact presentByte_effect d s
    · exact .refl s
  | txNoreq x => cases h; exact .refl s
  | isDraining =>
    change execIsDraining s = .next t at h
    rcases execIsDraining_cases s with ⟨_, e⟩ | ⟨_, _, _, e⟩ <;> rw [e] at h <;> cases h
    · exact .observes s _
    · exact .refl s
  | drainWait =>
    change execDrainWait s = .next t at h
    rcases execDrainWait_cases s with ⟨_, _, e⟩ | ⟨_, _, e⟩ | ⟨_, _, e⟩ <;> rw [e] at h <;> cases h
    · exact drainReturns_effect s
    · exact .goesOn .drain s.trace fun _ _ => trivial
    · exact .refl s
  | poll => exact whenHostFree_effect (.polls _) h
  | noPoll => exact whenHostFree_effect (.observes s _) h
  | validate buf n =>
    change execValidate buf n s = .next t at h
    rcases execValidate_cases buf n s with ⟨_, e⟩ | ⟨_, _, e⟩ | ⟨_, _, e⟩ <;> rw [e] at h <;> cases h
    · exact .refl s
    · exact .observes s _
  | send name buf n =>
    change execSend name buf n s = .next t at h
    rcases execSend_cases name buf n s with ⟨_, e⟩ | ⟨_, _, e⟩ | ⟨_, _, _, e⟩ | ⟨_, _, _, _, e⟩ | ⟨hb, hn, _, e⟩ <;>
      rw [e] at h <;> cases h
    · exact .refl s
    · exact beginSend_effect hb hn
  | _ => cases hi

theorem afterNameByte_ok {b : Byte} {rest payload : List Byte} (h : HostOk (.sendName (b :: rest) payload)) :
    HostOk (afterNameByte b rest payload) := by
  obtain ⟨⟨m, hm, hmsb⟩, hp⟩ := h
  unfold afterNameByte
  split
  · exact ⟨hp, Nat.zero_add _⟩
  · rename_i hb
    rcases List.mem_cons.1 hm with rfl | hm
    · exact absurd hmsb hb
    · exact ⟨⟨m, hm, hmsb⟩, hp⟩

theorem afterPayloadByte_ok {b : Byte} {rest : List Byte} {k len : Nat} (h : HostOk (.sendPayload (b :: rest) k len)) :
    HostOk (afterPayloadByte rest k len) := by
  obtain ⟨_, hk⟩ := h
  unfold afterPayloadByte
  split
  · trivial
  · exact ⟨‹_›, by rw [← hk, List.length_cons]; omega⟩

theorem settleTurn_ok {left : Nat} {name payload : List Byte} (h : HostOk (.settle left name payload)) :
    HostOk (if 1 < left then .settle (left - 1) name payload else .sendName name payload) := by
  obtain ⟨_, hn⟩ := h
  split
  · exact ⟨by omega, hn⟩
  · exact hn

/-- Everything a turn of HOST can do. -/
theorem hostTurn_effect {s t : State} (h : hostTurn s = .next t) : HostEffect s t := by
  cases hp : s.host with
  | idle => rw [hostTurn_idle hp] at h; cases h; exact .refl s
  | enqueue d => rw [hostTurn_enqueue hp] at h; cases h; exact presentByte_effect d s
  | drain =>
    rw [hostTurn_drain hp] at h
    cases h
    split
    · exact .refl s
    · exact drainReturns_effect s
  | settle left name payload =>
    rw [hostTurn_settle hp] at h
    cases h
    exact .goesOn _ s.trace fun _ ho => settleTurn_ok (hp ▸ ho)
  | sendName name payload =>
    cases name with
    | nil => rw [hostTurn_sendName_nil hp] at h; cases h
    | cons b rest =>
      rw [hostTurn_sendName_cons hp] at h
      cases h
      split
      · exact .refl s
      · exact .sends b _ _ (Bool.eq_false_of_not_eq_true ‹_›) fun _ ho => afterNameByte_ok (hp ▸ ho)
  | sendPayload rest k len =>
    cases rest with
    | nil =>
      rw [hostTurn_sendPayload_nil hp] at h
      cases h
      exact .goesOn _ s.trace fun _ _ => trivial
    | cons b rest =>
      rw [hostTurn_sendPayload_cons hp] at h
      cases h
      split
      · exact .refl s
      · have room : txFull s = false := Bool.eq_false_of_not_eq_true ‹_›
        rcases reportProgress_cases k len (acceptByte b { s with host := afterPayloadByte rest k len })
          with ⟨_, e⟩ | ⟨_, e⟩ <;> rw [e] <;> exact .sends b _ _ room fun _ ho => afterPayloadByte_ok (hp ▸ ho)
  | sendDrain =>
    rw [hostTurn_sendDrain hp] at h
    cases h
    split
    · exact .refl s
    · exact .goesOn .idle _ fun _ _ => trivial

/-! ### Everything an operation can do to the state (R72) -/

/-- What the operations come to, each over the named operation on the state that its rule is written with. -/
inductive Effect (s : State) : Instr → State → Prop
  | host {i : Instr} {t : State} (hi : agentOf i = .host) (h : HostEffect s t) : Effect s i t
  | nothing {i : Instr} : Effect s i s
  | ticks : Effect s .pteTick (observe (.out (out (tick s))) (tick s))
  | captures (a b : Bool) : Effect s (.smpCapture a b)
    { pushSample (sampleOf (phaseOf a b) s.phase) s with phase := phaseOf a b, lines := phaseOf a b }
  | takes {i : Instr} (x : Sample) (hi : decode (.smp x) = .op i) : Effect s i (qdecStep x s)
  | debounces (level : Bool) : Effect s (.debTick level) (debounce level s)
  | publishes (e : KeyEvent) : Effect s (publishInstr e) (publish e s)
  | syncsR (past : List Cursor) : Effect s .syncR
    { s with rptrP := syncCopy s s.rptrP s.rptr past, rptrPast := past, draws := s.draws + 1 }
  | syncsW (past : List Cursor) : Effect s .syncW
    { s with wptrC := syncCopy s s.wptrC s.wptr past, wptrPast := past, draws := s.draws + 1 }
  | resets : Effect s .reset (resetBlock s)

/-- Everything an operation can do. -/
theorem exec_effect {i : Instr} {s t : State} (h : exec i s = .next t) : Effect s i t := by
  by_cases hi : agentOf i = .host
  · exact .host hi (exec_host_effect h hi)
  cases i with
  | pteTick => cases h; exact .ticks
  | smpCapture a b =>
    rcases execSmpCapture_cases h with rfl | rfl
    · exact .nothing
    · exact .captures a b
  | debTick level => cases h; exact .debounces level
  | debNotick x => cases h; exact .nothing
  | publishUp => cases h; exact .publishes .up
  | publishDown => cases h; exact .publishes .down
  | publishEnter => cases h; exact .publishes .enter
  | syncR =>
    change execSyncR s = .next t at h
    unfold execSyncR at h
    split at h <;> cases h
    · exact .nothing
    · exact .syncsR _
  | syncW =>
    change execSyncW s = .next t at h
    unfold execSyncW at h
    split at h <;> cases h
    · exact .nothing
    · exact .syncsW _
  | reset => cases h; exact .resets
  | enqueue | txNoreq | isDraining | drainWait | poll | noPoll | validate | send => exact absurd rfl hi
  | _ => cases h; exact .takes _ rfl

/-! ### What a step keeps (R52) -/

/-- What each part of a step keeps: an operation, a turn of HOST, a raw sample, the count of a `clk_sys` cycle, and a
change of what only the model's own fields and the lines hold. -/
structure KeptByParts (P : State → Prop) : Prop where
  exec : ∀ {i s t}, P s → exec i s = .next t → P t
  turn : ∀ {s t}, P s → hostTurn s = .next t → P t
  push : ∀ {s} (x : Sample), P s → P (pushSample x s)
  count : ∀ {s}, P s → P (countCycle s)
  inputs : ∀ {s} (lines : PhaseValue) (script : List Slot) (trace : List Observation) (draws : Nat), P s →
    P { s with lines := lines, script := script, trace := trace, draws := draws }

section Kept

variable {P : State → Prop}

theorem KeptByParts.request (hP : KeptByParts P) {r : Request} {s t : State} (hs : P s)
    (h : performRequest r s = .next t) : P t := by
  cases r with
  | word w =>
    rcases performRequest_word_cases h with rfl | ⟨i, _, _, he⟩
    · exact hs
    · exact hP.exec hs he
  | takeSample =>
    rcases performRequest_takeSample_cases h with ⟨_, rfl⟩ | ⟨x, q, _, rfl⟩
    · exact hs
    · exact hP.exec hs (exec_decodeSmp x s)
  | hostTurn => exact hP.turn hs h

theorem KeptByParts.both (hP : KeptByParts P) {r₁ r₂ : Request} {s t : State} (hs : P s)
    (h : performBoth r₁ r₂ s = .next t) : P t := by
  obtain ⟨n, e | e⟩ := performBoth_cases r₁ r₂ s <;> rw [e] at h <;> obtain ⟨u, hu, ht⟩ := andThen_eq_next h <;>
    exact hP.request (hP.request (hP.inputs s.lines s.script s.trace n hs) hu) ht

theorem KeptByParts.clock (hP : KeptByParts P) {r : Request} {tickFirst : Bool} {s t : State} (hs : P s)
    (h : clockCycle r tickFirst s = .next t) : P t := by
  have hc : P (countCycle s) := hP.count hs
  unfold clockCycle at h
  split at h
  · split at h
    · exact hP.request hc h
    · split at h
      · exact hP.both hc h
      · exact hP.both hc h
  · split at h
    · cases h; exact hc
    · exact hP.request hc h

theorem KeptByParts.slot (hP : KeptByParts P) {x : Slot} {s t : State} (hs : P s) (h : runSlot x s = .next t) : P t := by
  have hshow : P (showPending s) := hP.inputs s.lines s.script _ s.draws hs
  cases x with
  | one r => exact hP.request hs h
  | sameCycle r₁ r₂ => exact hP.both hshow h
  | clock r tickFirst => exact hP.clock hshow h
  | lines l => cases h; exact hP.inputs l s.script s.trace s.draws hs
  | sample x => cases h; exact hP.push x hs

/-- What each part of a step keeps, the step keeps. -/
theorem KeptByParts.step (hP : KeptByParts P) {s t : State} (hs : P s) (h : step s = .next t) : P t := by
  have hnext : P (nextSlot s).2 := by
    unfold nextSlot
    split
    · exact hP.inputs s.lines _ s.trace s.draws hs
    · exact hP.inputs s.lines s.script s.trace _ hs
  change runStep s = .next t at h
  unfold runStep at h
  split at h
  · exact hP.slot hnext h
  · cases h

end Kept

/-! ### The parameters (R34) -/

theorem HostEffect.cfg {s t : State} (h : HostEffect s t) : t.cfg = s.cfg := by
  cases h with
  | polls => exact takeEvent_cfg s
  | goesOn | sends => rfl

theorem exec_cfg {i : Instr} {s t : State} (h : exec i s = .next t) : t.cfg = s.cfg := by
  cases exec_effect h with
  | host _ h => exact h.cfg
  | _ => simp

theorem cfg_keptByParts (p : Config.Params) : KeptByParts fun s => s.cfg = p where
  exec hs h := (exec_cfg h).trans hs
  turn hs h := (hostTurn_effect h).cfg.trans hs
  push x hs := (pushSample_cfg x _).trans hs
  count hs := hs
  inputs _ _ _ _ hs := hs

/-- Settles O38: each part of a step leaves the parameters alone. -/
theorem parametersNeverChange : Obligations.ParametersNeverChange :=
  fun s _ h => (cfg_keptByParts s.cfg).step rfl h

/-! ### The invariant of the engine, the sample queue and the debouncer (R38 items 1 to 5) -/

theorem EngineInv.txq_room {s : State} (h : EngineInv s) (room : txFull s = false) : s.txq.length < s.cfg.txqDepth :=
  Nat.lt_of_le_of_ne h.txq fun e => Bool.eq_false_iff.1 room ((txFull_iff s).2 e)

theorem pulses_le (p : Config.Params) (b : Bool) : p.pulses b ≤ max p.n0 p.n1 := by
  cases b
  · exact Nat.le_max_left ..
  · exact Nat.le_max_right ..

/-- Starting a bit shifts SR once and counts NB once, so what SR holds after its first NB bits stays 0 (R83). -/
theorem startBit_engineInv {s : State} (hl : s.cfg.Legal) (h : EngineInv s) {sr : Byte} {nb : BitVec 4} (h0 : nb ≠ 0#4)
    (h8 : nb.toNat ≤ 8) (hsr : if s.cfg.msbFirst then sr <<< nb.toNat = 0#8 else sr >>> nb.toNat = 0#8) :
    EngineInv (startBit sr nb s) := by
  obtain ⟨_, _, _, _, _, hHi, _⟩ := hl
  have hpred : (nb - 1).toNat + 1 = nb.toNat := by bv_omega
  exact {
    txq := h.txq
    smpq := h.smpq
    idle_iff := ⟨nofun, fun ht => absurd ht (Nat.ne_of_gt hHi)⟩
    idle_clear := nofun
    hi := fun _ => ⟨hHi, le_rfl⟩
    lo := nofun
    gap := nofun
    nb := by rw [startBit_nb]; omega
    np := Nat.sub_le_sub_right (pulses_le s.cfg _) 1
    shifted := by
      rw [startBit_cfg, startBit_sr, startBit_nb]
      split <;> rename_i hm
      · rw [if_pos hm, ← hpred, Nat.add_comm, BitVec.shiftLeft_add] at hsr
        exact hsr
      · rw [if_neg hm, ← hpred, Nat.add_comm, BitVec.shiftRight_add] at hsr
        exact hsr
    divcnt := h.divcnt
    cnt := h.cnt }

/-- Loading a byte takes it off TXQ and starts the first of its 8 bits (R82, R86). -/
theorem loadByte_engineInv {s : State} (hl : s.cfg.Legal) (h : EngineInv s) {d : Byte} {rest : List Byte}
    (hq : s.txq = d :: rest) : EngineInv (startBit d 8#4 { s with txq := rest }) := by
  have hrest : rest.length ≤ s.cfg.txqDepth := by
    have hlen := h.txq
    rw [hq, List.length_cons] at hlen
    omega
  have hpopped : EngineInv { s with txq := rest } := { h with txq := hrest }
  refine startBit_engineInv (s := { s with txq := rest }) hl hpopped (by decide) (by decide) ?_
  split
  · exact BitVec.shiftLeft_eq_zero (by decide)
  · exact BitVec.ushiftRight_eq_zero (by decide)

/-- PTE_TICK keeps the invariant of the engine: row by row of R169. -/
theorem tick_engineInv {s : State} (hl : s.cfg.Legal) (h : EngineInv s) : EngineInv (tick s) := by
  obtain ⟨_, _, _, _, _, hHi, hLo, hGap, _⟩ := id hl
  rcases tick_cases s with ⟨_, _, e⟩ | ⟨d, rest, _, hq, e⟩ | ⟨hp, ht, e⟩ | ⟨hp, _, e⟩ | ⟨hp, _, hn, e⟩ |
    ⟨hp, _, hn, e⟩ | ⟨hp, _, hn, e⟩ | ⟨d, rest, _, _, _, hq, e⟩ | ⟨hp, _, hn, _, e⟩ <;> rw [e]
  · exact h
  · exact loadByte_engineInv hl h hq
  · exact { h with
      idle_iff := ⟨fun hi => absurd hi hp, fun h0 => absurd h0 (by change s.tmr - 1 ≠ 0; omega)⟩
      idle_clear := fun hi => absurd hi hp
      hi := fun hh => by have := h.hi hh; change 1 ≤ s.tmr - 1 ∧ s.tmr - 1 ≤ s.cfg.tHi; omega
      lo := fun hh => by have := h.lo hh; change 1 ≤ s.tmr - 1 ∧ s.tmr - 1 ≤ s.cfg.tLo; omega
      gap := fun hh => by have := h.gap hh; change 1 ≤ s.tmr - 1 ∧ s.tmr - 1 ≤ s.cfg.tGap ∧ s.np = 0; omega }
  · exact { h with
      idle_iff := ⟨nofun, fun h0 => absurd h0 (Nat.ne_of_gt hLo)⟩
      idle_clear := nofun
      hi := nofun
      lo := fun _ => ⟨hLo, le_rfl⟩
      gap := nofun }
  · exact { h with
      idle_iff := ⟨nofun, fun h0 => absurd h0 (Nat.ne_of_gt hHi)⟩
      idle_clear := nofun
      hi := fun _ => ⟨hHi, le_rfl⟩
      lo := nofun
      gap := nofun
      np := (Nat.sub_le _ _).trans h.np }
  · exact { h with
      idle_iff := ⟨nofun, fun h0 => absurd h0 (Nat.ne_of_gt hGap)⟩
      idle_clear := nofun
      hi := nofun
      lo := nofun
      gap := fun _ => ⟨hGap, le_rfl, hn⟩ }
  · exact startBit_engineInv hl h hn (h.nb.trans (by decide)) h.shifted
  · exact loadByte_engineInv hl h hq
  · have hsr : s.sr = 0#8 := by simpa [hn] using h.shifted
    obtain ⟨_, _, hnp⟩ := h.gap hp
    exact { h with
      idle_iff := ⟨fun _ => rfl, fun _ => rfl⟩
      idle_clear := fun _ => ⟨hn, hnp, hsr⟩
      hi := nofun
      lo := nofun
      gap := nofun }

theorem countCycle_engineInv {s : State} (hl : s.cfg.Legal) (h : EngineInv s) : EngineInv (countCycle s) := by
  obtain ⟨_, _, _, _, _, _, _, _, hdiv, _⟩ := hl
  refine { h with divcnt := ?_ }
  rw [countCycle_divcnt, countCycle_cfg]
  split
  · exact hdiv
  · exact Nat.lt_of_not_le (mt (divWraps_iff s).2 ‹_›)

theorem pushSample_engineInv (x : Sample) {s : State} (h : EngineInv s) : EngineInv (pushSample x s) := by
  rcases pushSample_cases x s with ⟨hroom, e⟩ | ⟨_, e⟩ <;> rw [e]
  · exact { h with smpq := by rw [List.length_append]; exact hroom }
  · exact h

theorem publish_engineInv (e : KeyEvent) {s : State} (h : EngineInv s) : EngineInv (publish e s) := by
  rcases publish_cases e s with ⟨_, e⟩ | ⟨_, e⟩ <;> rw [e]
  · exact h
  · exact { h with }

theorem publishSome_engineInv (e : Option KeyEvent) {s : State} (h : EngineInv s) : EngineInv (publishSome e s) := by
  cases e with
  | none => exact h
  | some e => exact publish_engineInv e h

theorem qdecStep_engineInv (x : Sample) {s : State} (h : EngineInv s) : EngineInv (qdecStep x s) := by
  rcases qdecStep_cases x s with ⟨_, e⟩ | ⟨q, hq, e⟩ <;> rw [e]
  · exact h
  · refine publishSome_engineInv _ { h with smpq := ?_ }
    have hlen := h.smpq
    rw [hq, List.length_cons] at hlen
    exact (Nat.le_succ _).trans hlen

/-- CNT never exceeds the value a window is opened with (R38 item 5). -/
theorem debounce_engineInv (level : Bool) {s : State} (h : EngineInv s) : EngineInv (debounce level s) := by
  rcases debounce_cases level s with ⟨_, e⟩ | ⟨_, _, e⟩ | ⟨_, _, e⟩ | ⟨_, h0, _, e⟩ <;> rw [e]
  · exact { h with cnt := Nat.zero_le _ }
  · exact { h with cnt := le_rfl }
  · exact publishSome_engineInv _ { h with cnt := Nat.zero_le _ }
  · refine { h with cnt := (?_ : (s.cnt - 1).toNat ≤ s.cnt.toNat).trans h.cnt }
    bv_omega

theorem takeEvent_engineInv {s : State} (h : EngineInv s) : EngineInv (takeEvent s) := by
  rcases takeEvent_cases s with ⟨_, e, _⟩ | ⟨_, e, _⟩ <;> rw [e]
  · exact h
  · exact { h with }

/-! ### The invariant of the event queue (R38 items 6 and 7) -/

/-- With room as the producer sees it there is room: what it sees is RPTR, or a copy that is not ahead of it (R123). -/
theorem QueueInv.room {s : State} (h : QueueInv s) (hne : cursorDistance (rptrSeen s) s.wptr ≠ s.cfg.source.evqCap) :
    evCount s < s.cfg.source.evqCap := by
  have hcount := h.count
  by_cases hlag : s.cfg.evqLag = 0
  · rw [rptrSeen, if_pos hlag] at hne
    exact Nat.lt_of_le_of_ne hcount hne
  · rw [rptrSeen, if_neg hlag] at hne
    obtain ⟨hr, hw⟩ := h.producer (Nat.pos_of_ne_zero hlag)
    have hcap := evqCap_le h
    have htrans := cursorDistance_trans s.rptrP s.rptr s.wptr
    have hlt := cursorDistance_lt s.rptr s.wptr
    unfold evCount at hcount ⊢
    omega

/-- An event the consumer sees is there: it sees WPTR, or a copy that is not ahead of it (R123). -/
theorem QueueInv.count_pos {s : State} (h : QueueInv s) (hne : wptrSeen s ≠ s.rptr) : 0 < evCount s := by
  by_cases hlag : s.cfg.evqLag = 0
  · rw [wptrSeen, if_pos hlag] at hne
    exact Nat.pos_of_ne_zero fun h0 => hne (cursorDistance_eq_zero.1 h0).symm
  · rw [wptrSeen, if_neg hlag] at hne
    have hpos : 0 < cursorDistance s.rptr s.wptrC := Nat.pos_of_ne_zero fun h0 => hne (cursorDistance_eq_zero.1 h0).symm
    exact hpos.trans_le (h.consumer (Nat.pos_of_ne_zero hlag))

/-- One more event makes a distance that is below 63 one greater. -/
theorem cursorDistance_succ_right {a b : Cursor} (h : cursorDistance a b < 63) :
    cursorDistance a (b + 1) = cursorDistance a b + 1 := by
  have htrans := cursorDistance_trans a b (b + 1)
  rw [cursorDistance_succ] at htrans
  omega

/-- One event taken makes a distance that is not 0 one less. -/
theorem cursorDistance_succ_left_of_pos {a b : Cursor} (h : 0 < cursorDistance a b) :
    cursorDistance (a + 1) b = cursorDistance a b - 1 := by
  have htrans := cursorDistance_trans (a + 1) a b
  rw [cursorDistance_succ_left] at htrans
  have hlt := cursorDistance_lt a b
  omega

/-- The unread events do not stand in the slot that WPTR points at. -/
theorem slotIndex_unread_ne {s : State} {k : Nat} (hk : k < evCount s) (hroom : evCount s < 32) :
    slotIndex s.wptr ≠ slotIndex (s.rptr + BitVec.ofNat Config.document.evqPtrW k) := by
  have hsplit : s.rptr + BitVec.ofNat Config.document.evqPtrW k =
      s.wptr - BitVec.ofNat Config.document.evqPtrW (evCount s - k) := by
    have hw : s.rptr + BitVec.ofNat Config.document.evqPtrW (evCount s) = s.wptr := add_cursorDistance s.rptr s.wptr
    have hn : BitVec.ofNat Config.document.evqPtrW (evCount s) =
        BitVec.ofNat Config.document.evqPtrW k + BitVec.ofNat Config.document.evqPtrW (evCount s - k) := by
      rw [← BitVec.ofNat_add, Nat.add_sub_cancel' hk.le]
    rw [← hw, hn]
    ring
  rw [hsplit]
  exact slotIndex_sub_ne s.wptr _ (by omega) (by omega)

/-- An accepted PUBLISH puts its code behind the unread events and leaves them as they are (R114). -/
theorem publish_queueInv (e : KeyEvent) {s : State} (h : QueueInv s) : QueueInv (publish e s) := by
  rcases publish_cases e s with ⟨_, he⟩ | ⟨hne, he⟩ <;> rw [he]
  · exact h
  have hroom := h.room hne
  have hcap := evqCap_le h
  have hcount : cursorDistance s.rptr (s.wptr + 1) = evCount s + 1 :=
    cursorDistance_succ_right (show evCount s < 63 by omega)
  refine { cap := h.cap, count := ?_, unread := fun k hk => ?_, producer := fun hlag => ?_, consumer := fun hlag => ?_ }
  · exact hcount.le.trans hroom
  · have hk' : k < evCount s + 1 := hcount ▸ hk
    rcases Nat.lt_succ_iff_lt_or_eq.1 hk' with hlt | rfl
    · have hold := h.unread k hlt
      unfold slotAt at hold ⊢
      rwa [Vector.getElem_set_ne _ _ (slotIndex_unread_ne hlt (by omega))]
    · have hw : s.rptr + BitVec.ofNat Config.document.evqPtrW (evCount s) = s.wptr := add_cursorDistance s.rptr s.wptr
      unfold slotAt
      simp only [hw, Vector.getElem_set_self]
      exact KeyEvent_code_ne_zero e
  · obtain ⟨hr, hw⟩ := h.producer hlag
    have hfull : cursorDistance s.rptrP s.wptr ≠ s.cfg.source.evqCap := by
      rwa [rptrSeen, if_neg (Nat.ne_of_gt hlag)] at hne
    have hsucc := cursorDistance_succ_right (a := s.rptrP) (b := s.wptr) (by omega)
    change cursorDistance s.rptrP s.rptr ≤ cursorDistance s.rptrP (s.wptr + 1) ∧
      cursorDistance s.rptrP (s.wptr + 1) ≤ s.cfg.source.evqCap
    omega
  · have hc := h.consumer hlag
    change cursorDistance s.rptr s.wptrC ≤ cursorDistance s.rptr (s.wptr + 1)
    unfold evCount at hcount
    omega

/-- POLL takes the oldest unread event; the others keep their order (R115). -/
theorem takeEvent_queueInv {s : State} (h : QueueInv s) : QueueInv (takeEvent s) := by
  rcases takeEvent_cases s with ⟨_, e, _⟩ | ⟨hne, e, _⟩ <;> rw [e]
  · exact h
  have hpos := h.count_pos hne
  have hcap := evqCap_le h
  have hmax := h.count
  have hcount : cursorDistance (s.rptr + 1) s.wptr = evCount s - 1 := cursorDistance_succ_left_of_pos hpos
  refine { cap := h.cap, count := ?_, unread := fun k hk => ?_, producer := fun hlag => ?_, consumer := fun hlag => ?_ }
  · exact hcount.le.trans ((Nat.sub_le _ _).trans hmax)
  · have hk' : k < evCount s - 1 := hcount ▸ hk
    have hnext : s.rptr + 1 + BitVec.ofNat Config.document.evqPtrW k =
        s.rptr + BitVec.ofNat Config.document.evqPtrW (k + 1) := by
      rw [Nat.add_comm, BitVec.ofNat_add, ← add_assoc]
      rfl
    change slotAt s (s.rptr + 1 + BitVec.ofNat Config.document.evqPtrW k) ≠ 0b00#2
    rw [hnext]
    exact h.unread (k + 1) (by omega)
  · obtain ⟨hr, hw⟩ := h.producer hlag
    have htrans := cursorDistance_trans s.rptrP s.rptr s.wptr
    unfold evCount at hpos hmax
    have hsucc := cursorDistance_succ_right (a := s.rptrP) (b := s.rptr) (by omega)
    change cursorDistance s.rptrP (s.rptr + 1) ≤ cursorDistance s.rptrP s.wptr ∧ _
    exact ⟨by omega, hw⟩
  · have hc := h.consumer hlag
    rw [wptrSeen, if_neg (Nat.ne_of_gt hlag)] at hne
    have hseen : cursorDistance (s.rptr + 1) s.wptrC = cursorDistance s.rptr s.wptrC - 1 :=
      cursorDistance_succ_left_of_pos (Nat.pos_of_ne_zero fun h0 => hne (cursorDistance_eq_zero.1 h0).symm)
    change cursorDistance (s.rptr + 1) s.wptrC ≤ cursorDistance (s.rptr + 1) s.wptr
    unfold evCount at hcount
    omega

/-- SYNC_R leaves the producer's copy between its old value and RPTR (R123). -/
theorem syncR_queueInv {s : State} (h : QueueInv s) (past : List Cursor) : QueueInv
    { s with rptrP := syncCopy s s.rptrP s.rptr past, rptrPast := past, draws := s.draws + 1 } := by
  refine { h with producer := fun hlag => ?_ }
  obtain ⟨hr, hw⟩ := h.producer hlag
  have hle := cursorDistance_syncCopy_le s s.rptrP s.rptr past
  generalize syncCopy s s.rptrP s.rptr past = v at hle ⊢
  have hvr := cursorDistance_trans s.rptrP v s.rptr
  have hvw := cursorDistance_trans s.rptrP v s.wptr
  have := cursorDistance_lt v s.rptr
  have := cursorDistance_lt v s.wptr
  have := cursorDistance_lt s.rptrP s.rptr
  have hcap := evqCap_le h
  change cursorDistance v s.rptr ≤ cursorDistance v s.wptr ∧ cursorDistance v s.wptr ≤ s.cfg.source.evqCap
  omega

/-- SYNC_W leaves the consumer's copy between RPTR and WPTR (R123). -/
theorem syncW_queueInv {s : State} (h : QueueInv s) (past : List Cursor) : QueueInv
    { s with wptrC := syncCopy s s.wptrC s.wptr past, wptrPast := past, draws := s.draws + 1 } := by
  refine { h with consumer := fun hlag => ?_ }
  have hc := h.consumer hlag
  have hle := cursorDistance_syncCopy_le s s.wptrC s.wptr past
  generalize syncCopy s s.wptrC s.wptr past = v at hle ⊢
  have hrw := cursorDistance_trans s.rptr s.wptrC s.wptr
  have hrv := cursorDistance_trans s.rptr s.wptrC v
  have := cursorDistance_lt s.wptrC s.wptr
  have := cursorDistance_lt s.rptr s.wptr
  have hmax := h.count
  have hcap := evqCap_le h
  unfold evCount at hmax
  change cursorDistance s.rptr v ≤ cursorDistance s.rptr s.wptr
  omega

theorem publishSome_queueInv (e : Option KeyEvent) {s : State} (h : QueueInv s) : QueueInv (publishSome e s) := by
  cases e with
  | none => exact h
  | some e => exact publish_queueInv e h

theorem tick_queueInv {s : State} (h : QueueInv s) : QueueInv (tick s) := by
  rcases tick_cases s with ⟨_, _, e⟩ | ⟨_, _, _, _, e⟩ | ⟨_, _, e⟩ | ⟨_, _, e⟩ | ⟨_, _, _, e⟩ | ⟨_, _, _, e⟩ |
    ⟨_, _, _, e⟩ | ⟨_, _, _, _, _, _, e⟩ | ⟨_, _, _, _, e⟩ <;> rw [e] <;> exact { h with }

theorem pushSample_queueInv (x : Sample) {s : State} (h : QueueInv s) : QueueInv (pushSample x s) := by
  rcases pushSample_cases x s with ⟨_, e⟩ | ⟨_, e⟩ <;> rw [e] <;> exact { h with }

theorem qdecStep_queueInv (x : Sample) {s : State} (h : QueueInv s) : QueueInv (qdecStep x s) := by
  rcases qdecStep_cases x s with ⟨_, e⟩ | ⟨q, _, e⟩ <;> rw [e]
  · exact h
  · exact publishSome_queueInv _ { h with }

theorem debounce_queueInv (level : Bool) {s : State} (h : QueueInv s) : QueueInv (debounce level s) := by
  rcases debounce_cases level s with ⟨_, e⟩ | ⟨_, _, e⟩ | ⟨_, _, e⟩ | ⟨_, _, _, e⟩ <;> rw [e]
  · exact { h with }
  · exact { h with }
  · exact publishSome_queueInv _ { h with }
  · exact { h with }

/-! ### The invariant of the machine (R38, R39) -/

/-- RESET establishes the invariant, from any state with legal parameters: every queue is empty and the engine idle. -/
theorem resetBlock_inv {s : State} (hl : s.cfg.Legal) : Inv (resetBlock s) where
  legal := hl
  engine := by
    obtain ⟨_, _, _, _, _, _, _, _, hdiv, _⟩ := id hl
    constructor <;> simp [Nat.lt_of_succ_le hdiv]
  queue := by
    obtain ⟨hsrc, _⟩ := id hl
    constructor <;> simp [evCount, hsrc]
  host := trivial

theorem HostEffect.inv {s t : State} (h : HostEffect s t) (hs : Inv s) : Inv t := by
  cases h with
  | goesOn p tr hp => exact ⟨hs.legal, { hs.engine with }, { hs.queue with }, hp hs.legal hs.host⟩
  | sends d p tr room hp =>
    refine ⟨hs.legal, { hs.engine with txq := ?_ }, { hs.queue with }, hp hs.legal hs.host⟩
    rw [List.length_append]
    exact hs.engine.txq_room room
  | polls tr =>
    refine ⟨?_, { takeEvent_engineInv hs.engine with }, { takeEvent_queueInv hs.queue with }, ?_⟩
    · exact (takeEvent_cfg s).symm ▸ hs.legal
    · exact (takeEvent_host s).symm ▸ hs.host

/-- Every operation keeps the invariant. -/
theorem exec_inv {i : Instr} {s t : State} (hs : Inv s) (h : exec i s = .next t) : Inv t := by
  have hcfg : t.cfg = s.cfg := exec_cfg h
  have hl : t.cfg.Legal := hcfg ▸ hs.legal
  have host_of_eq (he : t.host = s.host) : HostOk t.host := he ▸ hs.host
  cases exec_effect h with
  | host _ h => exact h.inv hs
  | nothing => exact hs
  | ticks =>
    exact ⟨hl, { tick_engineInv hs.legal hs.engine with }, { tick_queueInv hs.queue with }, host_of_eq (by simp)⟩
  | captures a b =>
    exact ⟨hl, { pushSample_engineInv _ hs.engine with }, { pushSample_queueInv _ hs.queue with }, host_of_eq (by simp)⟩
  | takes x => exact ⟨hl, qdecStep_engineInv x hs.engine, qdecStep_queueInv x hs.queue, host_of_eq (by simp)⟩
  | debounces level =>
    exact ⟨hl, debounce_engineInv level hs.engine, debounce_queueInv level hs.queue, host_of_eq (by simp)⟩
  | publishes e => exact ⟨hl, publish_engineInv e hs.engine, publish_queueInv e hs.queue, host_of_eq (by simp)⟩
  | syncsR past => exact ⟨hl, { hs.engine with }, syncR_queueInv hs.queue past, hs.host⟩
  | syncsW past => exact ⟨hl, { hs.engine with }, syncW_queueInv hs.queue past, hs.host⟩
  | resets => exact resetBlock_inv hs.legal

theorem inv_keptByParts : KeptByParts Inv where
  exec := exec_inv
  turn hs h := (hostTurn_effect h).inv hs
  push x hs := ⟨(pushSample_cfg x _).symm ▸ hs.legal, pushSample_engineInv x hs.engine,
    pushSample_queueInv x hs.queue, (pushSample_host x _).symm ▸ hs.host⟩
  count hs := ⟨hs.legal, countCycle_engineInv hs.legal hs.engine, { hs.queue with }, hs.host⟩
  inputs _ _ _ _ hs := ⟨hs.legal, { hs.engine with }, { hs.queue with }, hs.host⟩

/-- Settles O35: each part of a step keeps the invariant. -/
theorem stepKeepsInvariant : Obligations.StepKeepsInvariant := fun _ _ hs h => inv_keptByParts.step hs h

/-- Settles O36. -/
theorem resetHasInvariant : Obligations.ResetHasInvariant :=
  ⟨by decide, by constructor <;> decide, by constructor <;> decide, trivial⟩

/-! ### The widths of the counters (R7, R15, R16, R18) -/

/-- `bitsAbove m` is the smallest width that holds `m`. -/
theorem bitsAbove_le_iff (m w : Nat) : Config.bitsAbove m ≤ w ↔ m < 2 ^ w := by
  unfold Config.bitsAbove
  split <;> rename_i h
  · simp [h]
  · rw [Nat.succ_le_iff, Nat.log2_lt h]

theorem lt_two_pow_bitsAbove (m : Nat) : m < 2 ^ Config.bitsAbove m := (bitsAbove_le_iff m _).1 le_rfl

theorem EngineInv.tmr_le {s : State} (h : EngineInv s) : s.tmr ≤ max s.cfg.tHi (max s.cfg.tLo s.cfg.tGap) := by
  cases hp : s.ph with
  | idle => have := h.idle_iff.1 hp; omega
  | hi => have := h.hi hp; omega
  | lo => have := h.lo hp; omega
  | gap => have := h.gap hp; omega

/-- Settles O39: each counter is at most the bound whose width is the counter's. -/
theorem countersFitTheirWidths : Obligations.CountersFitTheirWidths := by
  intro s hs
  obtain ⟨_, _, _, _, _, _, _, _, hdiv, _⟩ := hs.legal
  have hlast : s.cfg.div - 1 < 2 ^ s.cfg.divW := lt_two_pow_bitsAbove _
  have hdivcnt := hs.engine.divcnt
  refine ⟨?_, ?_, by omega, by omega, fun w hw => (bitsAbove_le_iff _ w).2 (by omega)⟩
  · calc s.np ≤ max s.cfg.n0 s.cfg.n1 - 1 := hs.engine.np
      _ < 2 ^ Config.bitsAbove (max s.cfg.n0 s.cfg.n1 - 1) := lt_two_pow_bitsAbove _
      _ ≤ 2 ^ s.cfg.cntW := Nat.pow_le_pow_right (by decide) (Nat.le_max_right ..)
  · exact hs.engine.tmr_le.trans_lt (lt_two_pow_bitsAbove _)

/-! ### Who writes what (R11 to R26) -/

/-- Of all that the block holds, HOST writes TXQ and RPTR at most. -/
theorem HostEffect.frame {s t : State} (h : HostEffect s t) :
    t = { s with txq := t.txq, rptr := t.rptr, host := t.host, trace := t.trace } := by
  cases h with
  | polls tr => rcases takeEvent_cases s with ⟨_, e, _⟩ | ⟨_, e, _⟩ <;> rw [e]
  | goesOn | sends => rfl

theorem exec_divcnt {i : Instr} {s t : State} (h : exec i s = .next t) (hr : i ≠ .reset) : t.divcnt = s.divcnt := by
  cases exec_effect h with
  | host _ h => rw [h.frame]
  | resets => exact absurd rfl hr
  | _ => simp

/-- Settles O40. -/
theorem engineWrittenOnlyByTick : Obligations.EngineWrittenOnlyByTick := by
  intro i s t h hr
  refine ⟨exec_divcnt h hr, fun ht => ?_⟩
  obtain ⟨b, hb, _⟩ := exec_transmits h hr ht
  exact ⟨hb.sr, hb.nb, hb.ph, hb.np, hb.tmr⟩

/-- PTE_TICK leaves TXQ alone or pops its head. -/
theorem tick_txq (s : State) : (tick s).txq = s.txq ∨ ∃ d, s.txq = d :: (tick s).txq := by
  rcases tick_cases s with ⟨_, _, e⟩ | ⟨d, rest, _, hq, e⟩ | ⟨_, _, e⟩ | ⟨_, _, e⟩ | ⟨_, _, _, e⟩ | ⟨_, _, _, e⟩ |
    ⟨_, _, _, e⟩ | ⟨d, rest, _, _, _, hq, e⟩ | ⟨_, _, _, _, e⟩ <;> simp [*]

/-- Settles O41. -/
theorem byteQueueWrittenOnlyAtEnds : Obligations.ByteQueueWrittenOnlyAtEnds := by
  intro i s t h hr
  by_cases ht : i = .pteTick
  · subst ht
    cases h
    exact (tick_txq s).imp_right fun hd => .inr ⟨rfl, hd⟩
  obtain ⟨b, hb, hd⟩ := exec_transmits h hr ht
  cases b with
  | none => exact .inl (hb.txq.trans (List.append_nil _))
  | some d => exact .inr (.inl ⟨d, hd d rfl, hb.txq⟩)

theorem exec_phase {i : Instr} {s t : State} (h : exec i s = .next t) (hr : i ≠ .reset) :
    (∃ a b, i = .smpCapture a b) ∨ t.phase = s.phase := by
  cases exec_effect h with
  | host _ h => exact .inr (by rw [h.frame])
  | captures a b => exact .inl ⟨a, b, rfl⟩
  | resets => exact absurd rfl hr
  | _ => exact .inr (by simp)

theorem exec_acc_cnt {i : Instr} {s t : State} (h : exec i s = .next t) (hr : i ≠ .reset) :
    (∃ level, i = .debTick level) ∨ (t.acc = s.acc ∧ t.cnt = s.cnt) := by
  cases exec_effect h with
  | host _ h => exact .inr (by rw [h.frame]; exact ⟨rfl, rfl⟩)
  | debounces level => exact .inl ⟨level, rfl⟩
  | resets => exact absurd rfl hr
  | _ => exact .inr (by simp)

/-- A sample joins SMPQ by SMP_CAPTURE, and is taken by the QDEC_STEP on it. -/
theorem exec_smpq {i : Instr} {s t : State} (h : exec i s = .next t) (hr : i ≠ .reset) :
    (t.smpq = s.smpq ∧ t.lastSample = s.lastSample) ∨
    (∃ a b, i = .smpCapture a b ∧ t.smpq = s.smpq ++ [sampleOf t.phase s.phase] ∧ t.lastSample = s.lastSample) ∨
    (∃ x, decode (.smp x) = .op i ∧ s.smpq = x :: t.smpq ∧ t.lastSample = x) := by
  cases exec_effect h with
  | host _ h => exact .inl (by rw [h.frame]; exact ⟨rfl, rfl⟩)
  | captures a b =>
    rcases pushSample_cases (sampleOf (phaseOf a b) s.phase) s with ⟨_, e⟩ | ⟨_, e⟩ <;> rw [e]
    · exact .inr (.inl ⟨a, b, rfl, rfl, rfl⟩)
    · exact .inl ⟨rfl, rfl⟩
  | takes x hi =>
    rcases qdecStep_cases x s with ⟨_, e⟩ | ⟨q, hq, e⟩
    · exact .inl (by rw [e]; exact ⟨rfl, rfl⟩)
    · exact .inr (.inr ⟨x, hi, by simp [e, hq], by simp [e]⟩)
  | resets => exact absurd rfl hr
  | _ => exact .inl (by simp)

/-- Settles O42. -/
theorem inputStateWrittenByItsAgents : Obligations.InputStateWrittenByItsAgents :=
  fun _ _ _ h hr => ⟨exec_phase h hr, exec_smpq h hr, exec_acc_cnt h hr⟩

/-! ### SYNC_R and SYNC_W (R123, R173) -/

theorem execSyncR_of_lag {s : State} (hlag : 0 < s.cfg.evqLag) : exec .syncR s = .next
    { s with
      rptrP := syncCopy s s.rptrP s.rptr (syncPast s.cfg.evqLag s.rptr s.rptrPast)
      rptrPast := syncPast s.cfg.evqLag s.rptr s.rptrPast
      draws := s.draws + 1 } := if_neg (Nat.ne_of_gt hlag)

theorem execSyncW_of_lag {s : State} (hlag : 0 < s.cfg.evqLag) : exec .syncW s = .next
    { s with
      wptrC := syncCopy s s.wptrC s.wptr (syncPast s.cfg.evqLag s.wptr s.wptrPast)
      wptrPast := syncPast s.cfg.evqLag s.wptr s.wptrPast
      draws := s.draws + 1 } := if_neg (Nat.ne_of_gt hlag)

/-- With the cursor standing still, each SYNC step adds one to the looks that have found it there. -/
theorem take_syncPast {lag j : Nat} {c : Cursor} {past : List Cursor} (hp : past.take j = List.replicate j c)
    (hj : j < lag) : (syncPast lag c past).take (j + 1) = List.replicate (j + 1) c := by
  rw [syncPast, List.take_take, Nat.min_eq_left hj, List.take_succ_cons, hp, List.replicate_succ]

/-- Once EVQ_LAG looks have found it there, the copy is the cursor (R173). -/
theorem syncCopy_stoodStill {s : State} {lag : Nat} {old c : Cursor} {past : List Cursor} (hlag : s.cfg.evqLag = lag)
    (hp : (syncPast lag c past).take lag = List.replicate lag c) : syncCopy s old c (syncPast lag c past) = c := by
  rw [syncPast, List.take_take, Nat.min_self] at hp
  exact if_pos (beq_iff_eq.2 (hlag ▸ hp))

section Synchroniser

/-! Both synchronisers at once: `f v past n` is the state with the copy at `v`, and the operation `i` moves that copy
towards the cursor `c`. -/

variable {i : Instr} {lag : Nat} {c : Cursor} {f : Cursor → List Cursor → Nat → State}
  (hlag : ∀ v past n, (f v past n).cfg.evqLag = lag)
  (hf : ∀ v past n, exec i (f v past n) =
    .next (f (syncCopy (f v past n) v c (syncPast lag c past)) (syncPast lag c past) (n + 1)))

include hlag hf

/-- After `j` looks that found the cursor at `c`, the `k + 1` steps still missing bring the copy there. -/
theorem runOps_sync_of_looks {j k : Nat} {v : Cursor} {past : List Cursor} {n : Nat} (hk : j + k + 1 = lag)
    (hp : past.take j = List.replicate j c) :
    ∃ past', runOps (List.replicate (k + 1) i) (f v past n) = .next (f c past' (n + (k + 1))) := by
  have hlook : (syncPast lag c past).take (j + 1) = List.replicate (j + 1) c := take_syncPast hp (by omega)
  induction k generalizing j v past n with
  | zero =>
    refine ⟨syncPast lag c past, ?_⟩
    have hcopy : syncCopy (f v past n) v c (syncPast lag c past) = c :=
      syncCopy_stoodStill (hlag v past n) (by rwa [hk] at hlook)
    simp only [List.replicate, runOps, hf, andThen_next, hcopy]
  | succ k ih =>
    obtain ⟨past', h⟩ := ih (j := j + 1) (by omega) hlook (take_syncPast hlook (by omega))
    refine ⟨past', ?_⟩
    rw [List.replicate_succ, runOps, hf, andThen_next, h]
    congr 2
    omega

/-- EVQ_LAG steps bring the copy up to the cursor, wherever it was (R173). -/
theorem runOps_sync (hpos : 0 < lag) (v : Cursor) (past : List Cursor) (n : Nat) :
    ∃ past', runOps (List.replicate lag i) (f v past n) = .next (f c past' (n + lag)) := by
  obtain ⟨k, hk⟩ := Nat.exists_eq_add_one_of_ne_zero (Nat.ne_of_gt hpos)
  obtain ⟨past', h⟩ := runOps_sync_of_looks hlag hf (j := 0) (k := k) (v := v) (past := past) (n := n) (by omega) rfl
  exact ⟨past', hk ▸ h⟩

end Synchroniser

/-- Settles O29: one step stays within the range of R123, and EVQ_LAG of them find the cursor standing still. -/
theorem syncMovesCopyForward : Obligations.SyncMovesCopyForward := by
  intro s
  refine ⟨fun hlag => ⟨_, _, cursorDistance_syncCopy_le .., execSyncR_of_lag hlag⟩,
    fun hlag => ⟨_, _, cursorDistance_syncCopy_le .., execSyncW_of_lag hlag⟩, fun hlag => ?_, fun hlag => ?_,
    fun h0 => ⟨if_pos h0, if_pos h0⟩⟩
  · exact runOps_sync (f := fun v past n => { s with rptrP := v, rptrPast := past, draws := n }) (fun _ _ _ => rfl)
      (fun v past n => execSyncR_of_lag (s := { s with rptrP := v, rptrPast := past, draws := n }) hlag)
      hlag s.rptrP s.rptrPast s.draws
  · exact runOps_sync (f := fun v past n => { s with wptrC := v, wptrPast := past, draws := n }) (fun _ _ _ => rfl)
      (fun v past n => execSyncW_of_lag (s := { s with wptrC := v, wptrPast := past, draws := n }) hlag)
      hlag s.wptrC s.wptrPast s.draws

/-! ### RESET (R39, R152) -/

/-- Settles O33. -/
theorem resetSetsEveryElement : Obligations.ResetSetsEveryElement := fun _ => ⟨_, rfl⟩

/-- Settles O34. -/
theorem resetStateAsTabled : Obligations.ResetStateAsTabled := by
  unfold Obligations.ResetStateAsTabled
  decide

/-! ### The step on an input (R52, R96) -/

/-- Settles O6. -/
theorem stepTakesInputs : Obligations.StepTakesInputs := by
  intro rest s hl
  refine ⟨fun h => step_of_script hl h, fun l h => step_of_script hl h, fun x h => ⟨fun hroom => ?_, fun hfull => ?_⟩⟩ <;>
    rw [step_of_script hl h, runSlot]
  · exact congrArg _ (if_pos hroom)
  · exact congrArg _ (if_neg (Nat.not_lt.2 hfull))

/-! ### Which requests present a byte (R78) -/

theorem decode_encode_enqueue (d : Byte) : decode (encode (.enqueue d)) = .op (.enqueue d) := by
  have hmsb : (BitVec.ofBool true ++ d).msb = true := BitVec.msb_cons
  have hlow : (BitVec.ofBool true ++ d).setWidth 8 = d := BitVec.setWidth_cons
  simp only [encode, encodeTxw, decode, decodeTxw, hmsb, hlow, if_true]

theorem presents_op_iff (i : Instr) (s : State) : presents (.op i) s = true ↔ ∃ d, i = .enqueue d := by
  cases i <;> simp [presents]

theorem presents_word_iff (w : PortWord) (s : State) :
    presents (resolve (.word w) s) s = true ↔ ∃ d, w = encode (.enqueue d) := by
  constructor
  · intro h
    simp only [resolve, actionOfWord] at h
    split at h
    · obtain ⟨d, rfl⟩ := (presents_op_iff _ s).1 h
      exact ⟨d, (encode_of_decode ‹_›).symm⟩
    · cases h
    · cases h
  · rintro ⟨d, rfl⟩
    simp only [resolve, actionOfWord, decode_encode_enqueue]
    rfl

/-- A request presents a byte when it is an ENQUEUE, or a turn of a HOST that holds one. -/
theorem presents_resolve_iff (r : Request) (s : State) : presents (resolve r s) s = true ↔
    (∃ d, r = .word (encode (.enqueue d))) ∨ (r = .hostTurn ∧ presented s ≠ none) := by
  cases r with
  | word w => simp [presents_word_iff]
  | takeSample => simp [presents_takeSample]
  | hostTurn => simp [resolve, presents, Option.isSome_iff_ne_none]

/-! ### PTE_TICK and a request in one cycle (R90, log 14) -/

theorem drawsOrder_tick_left (b : Action) (s : State) : drawsOrder (.op .pteTick) b s = false := by
  simp [drawsOrder, byQdec, byDeb, agentOf]

theorem drawsOrder_tick_right (a : Action) (s : State) : drawsOrder a (.op .pteTick) s = false := by
  simp [drawsOrder, byQdec, byDeb, agentOf]

theorem goesFirst_tick_of_not_presents {b : Action} {s : State} (h : presents b s = false) :
    goesFirst (.op .pteTick) b s = true := by
  have ht : presents (.op .pteTick) s = false := rfl
  simp [goesFirst, h, ht, mayPublish, byQdec, byDeb, agentOf, isPoll]

theorem goesFirst_of_not_presents_tick {a : Action} {s : State} (h : presents a s = false) :
    goesFirst a (.op .pteTick) s = true := by
  have ht : presents (.op .pteTick) s = false := rfl
  simp [goesFirst, h, ht, mayPublish, byQdec, byDeb, agentOf, isPoll]

/-- With a request that presents a byte, listed on either side, the tick comes first where TXQ has room; where it has
none the byte comes first, and is not accepted (R90). -/
theorem performBoth_tick_of_presents {r : Request} {s : State} (h : presents (resolve r s) s = true) :
    performBoth tickRequest r s = (if txFull s then andThen (performRequest r s) (exec .pteTick)
      else andThen (exec .pteTick s) (performRequest r)) ∧
    performBoth r tickRequest s = (if txFull s then andThen (performRequest r s) (exec .pteTick)
      else andThen (exec .pteTick s) (performRequest r)) := by
  constructor
  · simp only [performBoth, resolve_tickRequest, drawsOrder_tick_left, goesFirst_tick_presents h]
    cases txFull s <;> rfl
  · simp only [performBoth, resolve_tickRequest, drawsOrder_tick_right, goesFirst_presents_tick h]
    cases txFull s <;> rfl

/-- With a request that presents none, the tick comes where it is listed (log 14). -/
theorem performBoth_tick_of_not_presents {r : Request} {s : State} (h : presents (resolve r s) s = false) :
    performBoth tickRequest r s = andThen (exec .pteTick s) (performRequest r) ∧
    performBoth r tickRequest s = andThen (performRequest r s) (exec .pteTick) := by
  constructor
  · simp only [performBoth, resolve_tickRequest, drawsOrder_tick_left, goesFirst_tick_of_not_presents h]
    rfl
  · simp only [performBoth, resolve_tickRequest, drawsOrder_tick_right, goesFirst_of_not_presents_tick h]
    rfl

/-! ### A `clk_sys` cycle (R18) -/

/-- In every state whose sample queue is `q`, performing the request is `act`. -/
def ActsAs (r : Request) (q : List Sample) (act : State → Answer) : Prop := ∀ s, s.smpq = q → performRequest r s = act s

theorem word_actsAs {w : PortWord} {i : Instr} (h : decode w = .op i) (q : List Sample) : ActsAs (.word w) q (exec i) :=
  fun s _ => by simp only [performRequest, resolve, actionOfWord, h, perform]

theorem quiet_actsAs {w : PortWord} (h : decode w = .quiet) (q : List Sample) : ActsAs (.word w) q .next :=
  fun s _ => by simp only [performRequest, resolve, actionOfWord, h, perform]

theorem takeSample_actsAs {x : Sample} {i : Instr} {q : List Sample} (hx : q.head? = some x)
    (h : decode (.smp x) = .op i) : ActsAs .takeSample q (exec i) := by
  obtain ⟨rest, rfl⟩ := List.head?_eq_some_iff.1 hx
  exact fun s hs => by simp only [performRequest, resolve, hs, actionOfWord, h, perform]

theorem takeSample_actsAs_nil : ActsAs .takeSample [] .next :=
  fun s hs => by simp only [performRequest, resolve, hs, perform]

theorem hostTurn_actsAs (q : List Sample) : ActsAs .hostTurn q hostTurn := fun _ _ => rfl

/-- PTE_TICK leaves SMPQ alone, so after it a request acts as before. -/
theorem ActsAs.after_tick {r : Request} {act : State → Answer} {s : State} (h : ActsAs r s.smpq act) :
    andThen (exec .pteTick s) (performRequest r) = andThen (exec .pteTick s) act :=
  h (observe (.out (out (tick s))) (tick s)) (by simp)

section Cycle

variable {r : Request} {tickFirst : Bool} {s : State} {act : State → Answer}

/-- The step on a clock slot shows `smp_pending` and is the cycle (log 18). -/
theorem step_of_clock {rest : List Slot} (hl : s.cfg.Legal) (h : s.script = .clock r tickFirst :: rest) :
    step s = clockCycle r tickFirst { s with script := rest, trace := s.trace ++ [.smpPending (smpPending s)] } :=
  step_of_script hl h

/-- Below the wrap only the operation is performed. -/
theorem clockCycle_of_lt (hd : s.divcnt + 1 < s.cfg.div) (hr : r ≠ tickRequest) (ha : ActsAs r s.smpq act) :
    clockCycle r tickFirst s = act { s with divcnt := s.divcnt + 1 } := by
  rcases clockCycle_cases r tickFirst s with ⟨hw, _⟩ | ⟨_, ⟨h, _⟩ | ⟨_, e⟩⟩
  · exact absurd hd (Nat.not_lt.2 hw)
  · exact absurd h hr
  · exact e.trans (ha { s with divcnt := s.divcnt + 1 } rfl)

/-- A pulse strobe asked for counts for nothing (log 26). -/
theorem clockCycle_tick (tickFirst : Bool) (s : State) :
    (s.divcnt + 1 < s.cfg.div → clockCycle tickRequest tickFirst s = .next { s with divcnt := s.divcnt + 1 }) ∧
    (s.divcnt + 1 = s.cfg.div → clockCycle tickRequest tickFirst s = exec .pteTick { s with divcnt := 0 }) := by
  rcases clockCycle_cases tickRequest tickFirst s with ⟨hw, ⟨_, e⟩ | ⟨h, _⟩⟩ | ⟨hw, ⟨_, e⟩ | ⟨h, _⟩⟩
  · exact ⟨fun hd => absurd hd (Nat.not_lt.2 hw), fun _ => e⟩
  · exact absurd rfl h
  · exact ⟨fun _ => e, fun hd => absurd hd (Nat.ne_of_lt hw)⟩
  · exact absurd rfl h

theorem clockCycle_of_wrap (hd : s.divcnt + 1 = s.cfg.div) (hr : r ≠ tickRequest) :
    clockCycle r tickFirst s =
      if tickFirst then performBoth tickRequest r { s with divcnt := 0 }
      else performBoth r tickRequest { s with divcnt := 0 } := by
  rcases clockCycle_cases r tickFirst s with ⟨_, ⟨h, _⟩ | ⟨_, e⟩⟩ | ⟨hlt, _⟩
  · exact absurd h hr
  · exact e
  · exact absurd hd (Nat.ne_of_lt hlt)

/-- At the wrap a byte that HOST presents comes after the tick where TXQ had room, and before it where it had none (R90). -/
theorem clockCycle_of_presents (hd : s.divcnt + 1 = s.cfg.div) (hr : r ≠ tickRequest) (ha : ActsAs r s.smpq act)
    (hp : presents (resolve r s) s = true) :
    clockCycle r tickFirst s =
      if s.txq.length = s.cfg.txqDepth then andThen (act { s with divcnt := 0 }) (exec .pteTick)
      else andThen (exec .pteTick { s with divcnt := 0 }) act := by
  have hp₀ : presents (resolve r { s with divcnt := 0 }) { s with divcnt := 0 } = true :=
    (presents_resolve_congr (s := s) (u := { s with divcnt := 0 }) r rfl).trans hp
  have ha₀ : ActsAs r ({ s with divcnt := 0 } : State).smpq act := ha
  obtain ⟨hleft, hright⟩ := performBoth_tick_of_presents hp₀
  rw [clockCycle_of_wrap hd hr, hleft, hright, ite_self, ha₀.after_tick, ha₀ _ rfl]
  exact if_congr (txFull_iff s) rfl rfl

/-- At the wrap any other operation comes on the side of the tick that the slot says (log 14). -/
theorem clockCycle_of_not_presents (hd : s.divcnt + 1 = s.cfg.div) (hr : r ≠ tickRequest) (ha : ActsAs r s.smpq act)
    (hp : presents (resolve r s) s = false) :
    clockCycle r tickFirst s =
      if tickFirst then andThen (exec .pteTick { s with divcnt := 0 }) act
      else andThen (act { s with divcnt := 0 }) (exec .pteTick) := by
  have hp₀ : presents (resolve r { s with divcnt := 0 }) { s with divcnt := 0 } = false :=
    (presents_resolve_congr (s := s) (u := { s with divcnt := 0 }) r rfl).trans hp
  have ha₀ : ActsAs r ({ s with divcnt := 0 } : State).smpq act := ha
  obtain ⟨hleft, hright⟩ := performBoth_tick_of_not_presents hp₀
  rw [clockCycle_of_wrap hd hr, hleft, hright, ha₀.after_tick, ha₀ _ rfl]

/-- A cycle without an operation only counts, and ticks at the wrap. -/
theorem clockCycle_of_nothing (hr : r ≠ tickRequest) (ha : ActsAs r s.smpq .next) (hp : presents (resolve r s) s = false) :
    (s.divcnt + 1 < s.cfg.div → clockCycle r tickFirst s = .next { s with divcnt := s.divcnt + 1 }) ∧
    (s.divcnt + 1 = s.cfg.div → clockCycle r tickFirst s = exec .pteTick { s with divcnt := 0 }) := by
  refine ⟨fun hd => clockCycle_of_lt hd hr ha, fun hd => ?_⟩
  rw [clockCycle_of_not_presents hd hr ha hp]
  exact ite_self _

end Cycle

/-- A strobe that is low is no pulse tick, and HOST presents nothing by it. -/
theorem nothing_of_quiet {w : PortWord} (h : decode w = .quiet) (s : State) :
    .word w ≠ tickRequest ∧ presents (resolve (.word w) s) s = false := by
  refine ⟨?_, by simp only [resolve, actionOfWord, h]; rfl⟩
  rintro ⟨rfl⟩
  cases h

/-- Settles O10. -/
theorem clockCycleCountsDivider : Obligations.ClockCycleCountsDivider := by
  intro r tickFirst rest s u hl _ hs hu
  have hstep : step s = clockCycle r tickFirst u := (step_of_clock hl hs).trans (by rw [hu])
  have hdivcnt : u.divcnt = s.divcnt := by rw [hu]
  have hcfg : u.cfg = s.cfg := by rw [hu]
  have hsmpq : u.smpq = s.smpq := by rw [hu]
  have htxq : u.txq = s.txq := by rw [hu]
  have hpresents : presents (resolve r u) u = presents (resolve r s) s := presents_resolve_congr r (by rw [hu])
  rw [hstep, ← hdivcnt, ← hcfg, ← htxq]
  refine ⟨fun hnone => ?_, fun act hact => ?_⟩
  · rcases hnone with rfl | ⟨w, rfl, hw⟩ | ⟨rfl, hq⟩
    · exact clockCycle_tick tickFirst u
    · obtain ⟨hr, hp⟩ := nothing_of_quiet hw u
      exact clockCycle_of_nothing hr (quiet_actsAs hw _) hp
    · exact clockCycle_of_nothing nofun (hsmpq.trans hq ▸ takeSample_actsAs_nil) (presents_takeSample u)
  · have hboth : r ≠ tickRequest ∧ ActsAs r u.smpq act := by
      rcases hact with ⟨w, i, rfl, hw, hi, rfl⟩ | ⟨x, i, rfl, hx, hw, rfl⟩ | ⟨rfl, rfl⟩
      · refine ⟨?_, word_actsAs hw _⟩
        rintro ⟨rfl⟩
        exact hi (Decoded.op.inj hw).symm
      · exact ⟨nofun, takeSample_actsAs (hsmpq ▸ hx) hw⟩
      · exact ⟨nofun, hostTurn_actsAs _⟩
    obtain ⟨hr, ha⟩ := hboth
    refine ⟨fun hd => clockCycle_of_lt hd hr ha, fun hd => ⟨fun hp => ?_, fun hne hturn => ?_⟩⟩
    · exact clockCycle_of_presents hd hr ha (hpresents.trans ((presents_resolve_iff r s).2 hp))
    · refine clockCycle_of_not_presents hd hr ha (hpresents.trans (Bool.eq_false_iff.2 fun hp => ?_))
      rcases (presents_resolve_iff r s).1 hp with ⟨d, hd⟩ | ⟨ht, hd⟩
      · exact hne d hd
      · exact hd (hturn ht)

end Sys2Proof.Machine
end

section
/-! PROOFS. Memory and order (20_memory.md). The step on a word (R52); what is accepted stays on the line (R57, R91); an
unread event stays in its place (R54, R57). -/

namespace Sys2Proof.Machine

/-! ### The step on a word (R52, R72) -/

/-- Settles O4: the slot performs the request of its word, which acts as the operation that the word selects. -/
theorem stepRunsDecodedWord : Obligations.StepRunsDecodedWord :=
  fun _ _ _ s hl hs hw => (step_of_script hl hs).trans (word_actsAs hw s.smpq _ rfl)

/-! ### The line's future under an accepted byte (R57, R91) -/

theorem waves_append (p : Config.Params) (ds es : List Byte) : waves p (ds ++ es) = waves p ds ++ waves p es :=
  List.flatMap_append

theorem waves_singleton (p : Config.Params) (d : Byte) : waves p [d] = wave p d := List.flatMap_singleton (wave p) d

theorem Transmits.restOfByte {b : Option Byte} {s t : State} (h : Transmits b s t) : restOfByte t = restOfByte s := by
  simp only [Machine.restOfByte, h.ph, h.tmr, h.np, h.nb, h.sr, h.cfg]

/-- A byte that joins TXQ adds its frame at the end of what the line will show. -/
theorem Transmits.lineFuture_append {b : Option Byte} {s t : State} (h : Transmits b s t) :
    Machine.lineFuture t = Machine.lineFuture s ++ waves s.cfg b.toList := by
  rw [Machine.lineFuture, Machine.lineFuture, h.restOfByte, h.cfg, h.txq, waves_append, List.append_assoc]

/-- Settles O50: the engine stands still, and TXQ takes in at most the byte of an ENQUEUE. -/
theorem acceptedBytesStayOnTheLine : Obligations.AcceptedBytesStayOnTheLine := by
  intro i s t h hr ht
  obtain ⟨b, hb, hd⟩ := exec_transmits h hr ht
  cases b with
  | none => exact .inl hb.lineFuture
  | some d => exact .inr ⟨d, hd d rfl, waves_singleton s.cfg d ▸ hb.lineFuture_append⟩

/-! ### What PUBLISH does to the unread events (R114, R117) -/

/-- The unread events are a matter of SLOT and the two true cursors. -/
theorem unread_congr {s t : State} (hslot : t.slot = s.slot) (hw : t.wptr = s.wptr) (hr : t.rptr = s.rptr) :
    unread t = unread s := by
  simp only [unread, evCount, slotAt, hslot, hw, hr]

theorem slotAt_publish_of_ne (e : KeyEvent) {s : State} {c : Cursor} (hc : slotIndex s.wptr ≠ slotIndex c) :
    slotAt (publish e s) c = slotAt s c := by
  rcases publish_cases e s with ⟨_, he⟩ | ⟨_, he⟩ <;> rw [he]
  exact Vector.getElem_set_ne (slotIndex_lt s.wptr) (slotIndex_lt c) hc

section Room

variable {s : State} (hne : cursorDistance (rptrSeen s) s.wptr ≠ s.cfg.source.evqCap)
include hne

theorem publish_of_room (e : KeyEvent) : publish e s = { s with
    slot := s.slot.set (slotIndex s.wptr) e.code (slotIndex_lt s.wptr), wptr := s.wptr + 1 } :=
  ((publish_cases e s).resolve_left fun ⟨hfull, _⟩ => hne hfull).2

theorem slotAt_publish_wptr (e : KeyEvent) : slotAt (publish e s) s.wptr = e.code := by
  rw [publish_of_room hne]
  exact Vector.getElem_set_self _

theorem evCount_publish (e : KeyEvent) (h : QueueInv s) : evCount (publish e s) = evCount s + 1 := by
  have hroom := h.room hne
  have hcap := evqCap_le h
  rw [publish_of_room hne]
  exact cursorDistance_succ_right (show evCount s < 63 by omega)

/-- An accepted PUBLISH adds its event behind the unread ones, whose slots it does not write. -/
theorem unread_publish_of_room (e : KeyEvent) (h : QueueInv s) : unread (publish e s) = unread s ++ [e.code] := by
  have hroom : evCount s < 32 := (h.room hne).trans_le (evqCap_le h)
  have hend : s.rptr + BitVec.ofNat Config.document.evqPtrW (evCount s) = s.wptr := add_cursorDistance s.rptr s.wptr
  have hold (k : Nat) (hk : k ∈ List.range (evCount s)) :
      slotAt (publish e s) (s.rptr + BitVec.ofNat Config.document.evqPtrW k) =
        slotAt s (s.rptr + BitVec.ofNat Config.document.evqPtrW k) :=
    slotAt_publish_of_ne e (slotIndex_unread_ne (List.mem_range.1 hk) hroom)
  rw [unread, unread, evCount_publish hne e h, publish_rptr, List.range_succ, List.map_append, List.map_singleton, hend,
    slotAt_publish_wptr hne, List.map_congr_left hold]

end Room

/-! ### The operations that keep the unread events (R54, R57) -/

/-- From `s` to `t` the unread events stay in their place; at most one more event joins behind them. -/
def UnreadKept (s t : State) : Prop := unread t = unread s ∨ ∃ e : KeyEvent, unread t = unread s ++ [e.code]

theorem publish_unreadKept (e : KeyEvent) {s : State} (h : QueueInv s) : UnreadKept s (publish e s) := by
  rcases publish_cases e s with ⟨_, he⟩ | ⟨hne, _⟩
  · exact .inl (congrArg unread he)
  · exact .inr ⟨e, unread_publish_of_room hne e h⟩

theorem publishSome_unreadKept (e : Option KeyEvent) {s : State} (h : QueueInv s) : UnreadKept s (publishSome e s) := by
  cases e with
  | none => exact .inl rfl
  | some e => exact publish_unreadKept e h

theorem qdecStep_unreadKept (x : Sample) {s : State} (h : QueueInv s) : UnreadKept s (qdecStep x s) := by
  rcases qdecStep_cases x s with ⟨_, e⟩ | ⟨q, _, e⟩ <;> rw [e]
  · exact .inl rfl
  · exact publishSome_unreadKept _ (s := { s with smpq := q, lastSample := x }) { h with }

theorem debounce_unreadKept (level : Bool) {s : State} (h : QueueInv s) : UnreadKept s (debounce level s) := by
  rcases debounce_cases level s with ⟨_, e⟩ | ⟨_, _, e⟩ | ⟨_, _, e⟩ | ⟨_, _, _, e⟩ <;> rw [e]
  · exact .inl rfl
  · exact .inl rfl
  · exact publishSome_unreadKept _ (s := { s with acc := level, cnt := 0#4 }) { h with }
  · exact .inl rfl

/-- Of HOST's operations only POLL moves RPTR (R29, R115). -/
theorem exec_host_rptr {i : Instr} {s t : State} (h : exec i s = .next t) (hi : agentOf i = .host) (hp : i ≠ .poll) :
    t.rptr = s.rptr := by
  cases i with
  | poll => exact absurd rfl hp
  | enqueue d =>
    change execEnqueue d s = .next t at h
    rcases execEnqueue_cases d s with ⟨_, e⟩ | ⟨_, e⟩ | ⟨_, _, _, e⟩ <;> rw [e] at h <;> cases h
    · exact presentByte_rptr d s
    · rfl
  | txNoreq x => cases h; rfl
  | isDraining =>
    change execIsDraining s = .next t at h
    rcases execIsDraining_cases s with ⟨_, e⟩ | ⟨_, _, _, e⟩ <;> rw [e] at h <;> cases h <;> rfl
  | drainWait =>
    change execDrainWait s = .next t at h
    rcases execDrainWait_cases s with ⟨_, _, e⟩ | ⟨_, _, e⟩ | ⟨_, _, e⟩ <;> rw [e] at h <;> cases h <;> rfl
  | noPoll =>
    change whenHostFree s (.next (observe (.peeked (evr s)) s)) = .next t at h
    rcases whenHostFree_cases s (.next (observe (.peeked (evr s)) s)) with ⟨_, e⟩ | ⟨_, e⟩ <;> rw [e] at h <;> cases h <;>
      rfl
  | validate buf n =>
    change execValidate buf n s = .next t at h
    rcases execValidate_cases buf n s with ⟨_, e⟩ | ⟨_, _, e⟩ | ⟨_, _, e⟩ <;> rw [e] at h <;> cases h <;> rfl
  | send name buf n =>
    change execSend name buf n s = .next t at h
    rcases execSend_cases name buf n s with ⟨_, e⟩ | ⟨_, _, e⟩ | ⟨_, _, _, e⟩ | ⟨_, _, _, _, e⟩ | ⟨_, _, _, e⟩ <;>
      rw [e] at h <;> cases h
    · rfl
    · rcases beginSend_cases name buf n s with ⟨_, _, e⟩ | ⟨_, _, e⟩ <;> rw [e]
  | _ => cases hi

/-- Settles O53: apart from PUBLISH and the two operations that publish inside (R6) no operation writes SLOT or WPTR, and
apart from POLL none writes RPTR. -/
theorem unreadEventsKept : Obligations.UnreadEventsKept := by
  intro i s t hs h hr hp
  change UnreadKept s t
  cases exec_effect h with
  | host hi he =>
    have hslot : t.slot = s.slot := by rw [he.frame]
    have hwptr : t.wptr = s.wptr := by rw [he.frame]
    exact .inl (unread_congr hslot hwptr (exec_host_rptr h hi hp))
  | nothing => exact .inl rfl
  | ticks => exact .inl (unread_congr (by simp) (by simp) (by simp))
  | captures a b => exact .inl (unread_congr (by simp) (by simp) (by simp))
  | takes x => exact qdecStep_unreadKept x hs.queue
  | debounces level => exact debounce_unreadKept level hs.queue
  | publishes e => exact publish_unreadKept e hs.queue
  | syncsR past => exact .inl rfl
  | syncsW past => exact .inl rfl
  | resets => exact absurd rfl hr

end Sys2Proof.Machine
end

section
/-! PROOFS. Encoding (30_encoding.md). Words and operations select each other (R60 to R66, R72); the length of a byte frame
(R71); what is turned away (R74), and what changes nothing (R58, R72, R162). -/

namespace Sys2Proof.Machine

/-! ### Decoding undoes encoding (R60 to R66, R72) -/

@[simp] theorem msb_twoBits (hi lo : Bool) : (twoBits hi lo).msb = hi := BitVec.msb_cons

@[simp] theorem getElem_zero_twoBits (hi lo : Bool) : (twoBits hi lo)[0] = lo := by
  cases hi <;> cases lo <;> rfl

theorem decode_encode_txNoreq (x : Byte) : decode (encode (.txNoreq x)) = .op (.txNoreq x) := by
  have hmsb : (BitVec.ofBool false ++ x).msb = false := BitVec.msb_cons
  have hlow : (BitVec.ofBool false ++ x).setWidth 8 = x := BitVec.setWidth_cons
  simp only [encode, encodeTxw, decode, decodeTxw, hmsb, hlow, Bool.false_eq_true, if_false]

/-- The word of an operation selects that operation. The words with no operand are rows of a table; in the others each
operand is read back from the bits it was put in. -/
theorem decode_encode (i : Instr) : decode (encode i) = .op i := by
  cases i with
  | enqueue d => exact decode_encode_enqueue d
  | txNoreq x => exact decode_encode_txNoreq x
  | smpCapture a b => simp [encode, decode, decodePhv]
  | debTick s => simp [encode, decode, decodeDbw]
  | debNotick x => simp [encode, decode, decodeDbw]
  | _ => rfl

theorem decode_of_encode {w : PortWord} {i : Instr} (h : encode i = w) : decode w = .op i := h ▸ decode_encode i

/-- Settles O1: one way by the port of the word, the other by the operation. -/
theorem decodeEncodeAgree : Obligations.DecodeEncodeAgree := fun _ _ => ⟨encode_of_decode, decode_of_encode⟩

/-- Settles O2: each word but EVC `0b00` is what the encoder writes for its operation. -/
theorem writtenWordsDecode : Obligations.WrittenWordsDecode :=
  ⟨decode_of_encode rfl, decode_of_encode rfl, decode_of_encode rfl, decode_of_encode rfl, decode_of_encode rfl,
    decode_of_encode rfl, decode_of_encode rfl, decode_of_encode rfl, decode_of_encode rfl, rfl, decode_of_encode rfl⟩

/-! ### The length of a byte frame (R70, R71) -/

theorem length_bitFrame (p : Config.Params) (b : Bool) :
    (bitFrame p b).length = p.pulses b * (p.tHi + p.tLo) + p.tGap := by
  simp [bitFrame, pulseTrain, pulse, silence]

/-- The bits of `d` at any list of positions, sent one after the other, counted by their value. -/
theorem length_flatMap_bitFrame (p : Config.Params) (d : Byte) (l : List Nat) :
    (l.flatMap fun i => bitFrame p (d.getLsbD i)).length =
      l.countP (d.getLsbD ·) * p.n1 * (p.tHi + p.tLo) + l.countP (!d.getLsbD ·) * p.n0 * (p.tHi + p.tLo) +
        l.length * p.tGap := by
  induction l with
  | nil => simp
  | cons i l ih =>
    rw [List.flatMap_cons, List.length_append, ih, length_bitFrame]
    cases hb : d.getLsbD i <;> simp [Config.Params.pulses, hb] <;> ring

theorem bitOrder_perm (p : Config.Params) : (bitOrder p).Perm [0, 1, 2, 3, 4, 5, 6, 7] := by
  unfold bitOrder
  split
  · exact List.reverse_perm [0, 1, 2, 3, 4, 5, 6, 7]
  · rfl

theorem countP_bitOrder (p : Config.Params) (d : Byte) : (bitOrder p).countP (d.getLsbD ·) = ones d :=
  ((bitOrder_perm p).countP_eq _).trans List.countP_eq_length_filter

/-- Settles O44: whatever the order of the bits, eight are sent, and `ones d` of them are 1. -/
theorem waveLength : Obligations.WaveLength := by
  intro p d
  have hlen : (bitOrder p).length = 8 := (bitOrder_perm p).length_eq
  have hcount := (bitOrder p).length_eq_countP_add_countP (d.getLsbD ·)
  have hzeros : (bitOrder p).countP (!d.getLsbD ·) = 8 - ones d := by
    simp only [countP_bitOrder, hlen, Bool.not_eq_true, Bool.decide_eq_false] at hcount
    omega
  rw [wave, length_flatMap_bitFrame, countP_bitOrder, hzeros, hlen]

/-! ### What is turned away (R74) -/

theorem step_of_illegal {s : State} (h : ¬ s.cfg.Legal) : step s = .refused .illegalConfiguration := if_neg h

/-- Settles O11: each of the nine breaks a constraint of R7. -/
theorem illegalParametersRefused : Obligations.IllegalParametersRefused := by
  intro s hbad
  refine step_of_illegal fun ⟨_, htxq, hn0, hn1, hne, hhi, hlo, hgap, hdiv, hsmpq, _⟩ => ?_
  omega

theorem execValidate_of_not_imageOk {buf : List Byte} {n : Nat} {s : State} (h : ¬ ImageOk s.cfg buf n) :
    exec (.validate buf n) s = .refused .imagePrecondition := if_pos h

theorem execSend_of_not_imageOk {buf : List Byte} {n : Nat} {s : State} (name : List Byte) (h : ¬ ImageOk s.cfg buf n) :
    exec (.send name buf n) s = .refused .imagePrecondition := if_pos h

theorem execSend_of_not_nameOk {name buf : List Byte} {n : Nat} {s : State} (hi : ImageOk s.cfg buf n)
    (hn : ¬ NameOk name) : exec (.send name buf n) s = .refused .nameWithoutEndMarker :=
  (if_neg (not_not.2 hi)).trans (if_pos hn)

/-- The precondition on an image with the document's bound (R7, R126). -/
theorem imageOk_iff {p : Config.Params} (hp : p.source = Config.document) (buf : List Byte) (n : Nat) :
    ImageOk p buf n ↔ n ≤ 16384 ∧ n ≤ buf.length := by rw [ImageOk, hp]

theorem not_nameOk {name : List Byte} (h : ∀ b ∈ name, b.getLsbD 7 = false) : ¬ NameOk name := by
  rintro ⟨b, hb, hm⟩
  rw [BitVec.msb_eq_getLsbD_last, h b hb] at hm
  cases hm

/-- Settles O31: the image is looked at before the name (log 21). -/
theorem hostPreconditionsRefused : Obligations.HostPreconditionsRefused := by
  intro name buf n s hp
  refine ⟨fun hbad => ?_, fun hmax hlen hname =>
    execSend_of_not_nameOk ((imageOk_iff hp buf n).2 ⟨hmax, hlen⟩) (not_nameOk hname)⟩
  have himg : ¬ ImageOk s.cfg buf n := by rw [imageOk_iff hp]; omega
  exact ⟨execValidate_of_not_imageOk himg, execSend_of_not_imageOk name himg⟩

/-! ### What changes nothing (R58, R72, R78, R105, R162) -/

/-- Settles O14: with no request there is no operation to perform (R78, R105). -/
theorem noRequestChangesNothing : Obligations.NoRequestChangesNothing := fun _ _ _ => ⟨rfl, rfl⟩

theorem execSmpCapture_of_same {a b : Bool} {s : State} (h : phaseOf a b = s.phase) :
    exec (.smpCapture a b) s = .next s := if_pos h

theorem qdecStep_of_not_head {x : Sample} {s : State} (h : s.smpq.head? ≠ some x) : qdecStep x s = s := by
  rcases qdecStep_cases x s with ⟨_, e⟩ | ⟨q, hq, _⟩
  · exact e
  · exact absurd (hq ▸ List.head?_cons) h

theorem whenHostFree_of_not_idle {s : State} (a : Answer) (h : s.host ≠ .idle) : whenHostFree s a = .next s := if_neg h

theorem execValidate_of_not_idle {buf : List Byte} {n : Nat} {s : State} (hi : ImageOk s.cfg buf n)
    (h : s.host ≠ .idle) : exec (.validate buf n) s = .next s :=
  (if_neg (not_not.2 hi)).trans (whenHostFree_of_not_idle _ h)

theorem execEnqueue_of_drain {s : State} (d : Byte) (h : s.host = .drain) : exec (.enqueue d) s = .next s := by
  change execEnqueue d s = _
  rw [execEnqueue, h]

theorem execSend_of_drain {name buf : List Byte} {n : Nat} {s : State} (hi : ImageOk s.cfg buf n) (hn : NameOk name)
    (h : s.host = .drain) : exec (.send name buf n) s = .next s := by
  change execSend name buf n s = _
  rw [execSend, if_neg (not_not.2 hi), if_neg (not_not.2 hn), h]

theorem execDrainWait_of_other {s : State} (hi : s.host ≠ .idle) (hd : s.host ≠ .drain) :
    exec .drainWait s = .next s := by
  rcases execDrainWait_cases s with ⟨h | h, _, _⟩ | ⟨h | h, _, _⟩ | ⟨_, _, e⟩
  · exact absurd h hi
  · exact absurd h hd
  · exact absurd h hi
  · exact absurd h hd
  · exact e

theorem execIsDraining_of_other {s : State} (hi : s.host ≠ .idle) (hd : s.host ≠ .drain) (hs : s.host ≠ .sendDrain) :
    exec .isDraining s = .next s := by
  rcases execIsDraining_cases s with ⟨h | h | h, _⟩ | ⟨_, _, _, e⟩
  · exact absurd h hi
  · exact absurd h hd
  · exact absurd h hs
  · exact e

/-- Settles O24: the two hardware agents act on a change or a sample only (log 8), HOST on one thing at a time (log 29). -/
theorem notEnabledChangesNothing : Obligations.NotEnabledChangesNothing := by
  refine ⟨fun a b s h => execSmpCapture_of_same h, fun x i s hd hx => ?_, fun s hi => ⟨?poll, ?peek, ?validate, ?drain,
    execDrainWait_of_other hi, execIsDraining_of_other hi⟩⟩
  · cases hd
    rw [exec_decodeSmp, qdecStep_of_not_head hx]
  case poll => exact whenHostFree_of_not_idle _ hi
  case peek => exact whenHostFree_of_not_idle _ hi
  case validate => exact fun buf n himg => execValidate_of_not_idle himg hi
  case drain => exact fun hd =>
    ⟨fun d => execEnqueue_of_drain d hd, fun name buf n himg hname => execSend_of_drain himg hname hd⟩

end Sys2Proof.Machine
end

section
/-! PROOFS. The Pulse Timing Engine (40_pte.md). What HOST asks of it (R78 to R80); PTE_TICK row by row (R81 to R86, R169);
the pulse tick and a byte of HOST in one cycle (R90); what the line shows, and when it falls quiet (R87, R88). -/

namespace Sys2Proof.Machine

open Sys2Proof.Config (Request Slot)

/-! ### A byte that HOST presents (R78) -/

theorem presentByte_of_room {s : State} (d : Byte) (hroom : s.txq.length < s.cfg.txqDepth) :
    presentByte d s = { s with txq := s.txq ++ [d], host := .idle, trace := s.trace ++ [.accepted d] } :=
  ((presentByte_cases d s).resolve_left fun ⟨hfull, _⟩ => Nat.ne_of_lt hroom hfull).2

theorem presentByte_of_full {s : State} (d : Byte) (hfull : s.txq.length = s.cfg.txqDepth) :
    presentByte d s = { s with host := .enqueue d } :=
  ((presentByte_cases d s).resolve_right fun ⟨hroom, _⟩ => hroom hfull).2

/-- HOST performs an ENQUEUE between its procedures, and that of the byte it is blocked on. -/
theorem exec_enqueue_of_free {d : Byte} {s : State} (h : s.host = .idle ∨ s.host = .enqueue d) :
    exec (.enqueue d) s = .next (presentByte d s) := by
  rcases execEnqueue_cases d s with ⟨_, e⟩ | ⟨hd, _⟩ | ⟨hi, _, he, _⟩
  · exact e
  · rcases h with h | h <;> rw [h] at hd <;> cases hd
  · exact absurd h (not_or.2 ⟨hi, he⟩)

/-- Settles O12: the byte is presented to a queue that takes it. -/
theorem enqueueAccepted : Obligations.EnqueueAccepted := fun d _ hhost hroom => by
  rw [exec_enqueue_of_free hhost, presentByte_of_room d hroom]

/-- A blocked HOST that finds TXQ full still holds its byte: it is in the same place as before. -/
theorem presentByte_of_blocked {d : Byte} {s : State} (hhost : s.host = .enqueue d)
    (hfull : s.txq.length = s.cfg.txqDepth) : presentByte d s = s := by
  rw [presentByte_of_full d hfull, ← hhost]

/-- Settles O13: operation and turn present the byte alike, to the queue as they find it. -/
theorem enqueueBlockedHoldsByte : Obligations.EnqueueBlockedHoldsByte := by
  refine ⟨fun d s hhost hfull => ?_, fun d s hhost hroom => ?_, fun d s hhost hfull => ?_⟩
  · rw [exec_enqueue_of_free hhost, presentByte_of_full d hfull]
  · rw [hostTurn_enqueue hhost, presentByte_of_room d hroom]
  · rw [hostTurn_enqueue hhost, presentByte_of_blocked hhost hfull]

/-- HOST presents a byte in a blocked ENQUEUE, and in a SEND that has come to its name or to its payload. -/
theorem presented_eq_some_iff (d : Byte) (s : State) : presented s = some d ↔
    s.host = .enqueue d ∨ (∃ rest payload, s.host = .sendName (d :: rest) payload) ∨
      ∃ rest k len, s.host = .sendPayload (d :: rest) k len := by
  unfold presented
  split <;> rename_i hp <;> simp [hp]

/-- A report of SEND transmits nothing (R133). -/
theorem TransmitsOnly.reported {b : Option Byte} {s t : State} (h : TransmitsOnly b s t) (k len : Nat) :
    TransmitsOnly b s (reportProgress k len t) := by
  rcases reportProgress_cases k len t with ⟨_, e⟩ | ⟨_, e⟩ <;> rw [e]
  · exact { h with accepted := by rw [acceptedBytes_append, h.accepted]; exact List.append_nil _ }
  · exact h

/-- The turn of a HOST that presents a byte accepts it where TXQ has room, and goes on waiting with it where not. -/
theorem hostTurn_of_presented {d : Byte} {s : State} (h : presented s = some d) :
    (s.txq.length < s.cfg.txqDepth → ∃ v, hostTurn s = .next v ∧ TransmitsOnly (some d) s v) ∧
    (s.txq.length = s.cfg.txqDepth → hostTurn s = .next s) := by
  refine ⟨fun hroom => ?_, fun hfull => ?_⟩
  · have hfree : txFull s = false := txFull_eq_false hroom
    rcases (presented_eq_some_iff d s).1 h with hp | ⟨rest, payload, hp⟩ | ⟨rest, k, len, hp⟩
    · rw [hostTurn_enqueue hp, presentByte, hfree]
      exact ⟨_, rfl, acceptByte_transmitsOnly .idle hfree⟩
    · rw [hostTurn_sendName_cons hp, hfree]
      exact ⟨_, rfl, acceptByte_transmitsOnly _ hfree⟩
    · rw [hostTurn_sendPayload_cons hp, hfree]
      exact ⟨_, rfl, (acceptByte_transmitsOnly _ hfree).reported k len⟩
  · have hbusy : txFull s = true := (txFull_iff s).2 hfull
    rcases (presented_eq_some_iff d s).1 h with hp | ⟨rest, payload, hp⟩ | ⟨rest, k, len, hp⟩
    · rw [hostTurn_enqueue hp, presentByte_of_blocked hp hfull]
    · rw [hostTurn_sendName_cons hp, if_pos hbusy]
    · rw [hostTurn_sendPayload_cons hp, if_pos hbusy]

/-! ### IS_DRAINING and DRAIN_WAIT (R79, R80) -/

/-- HOST looks at TX_BUSY between its procedures and where it waits for it (R79, log 29). -/
theorem exec_isDraining_of_looking {s : State} (h : s.host = .idle ∨ s.host = .drain ∨ s.host = .sendDrain) :
    exec .isDraining s = .next (observe (.busy (txBusy s)) s) := by
  rcases execIsDraining_cases s with ⟨_, e⟩ | ⟨hi, hd, hs, _⟩
  · exact e
  · exact absurd h (not_or.2 ⟨hi, not_or.2 ⟨hd, hs⟩⟩)

/-- Settles O15: the look adds its answer to the trace, and that is all. -/
theorem isDrainingAnswersBusy : Obligations.IsDrainingAnswersBusy := by
  intro s hhost
  rw [exec_isDraining_of_looking hhost]
  refine ⟨fun hbusy => ?_, fun hq hp => ?_⟩
  · rw [(txBusy_iff s).2 hbusy]
    rfl
  · rw [(txBusy_eq_false_iff s).2 ⟨hq, hp⟩]
    rfl

/-- DRAIN_WAIT returns or waits as TX_BUSY says (R80). -/
theorem exec_drainWait_of_free {s : State} (h : s.host = .idle ∨ s.host = .drain) :
    exec .drainWait s = .next (if txBusy s then { s with host := .drain } else drainReturns s) := by
  rcases execDrainWait_cases s with ⟨_, hb, e⟩ | ⟨_, hb, e⟩ | ⟨hi, hd, _⟩
  · rw [hb]; exact e
  · rw [hb]; exact e
  · exact absurd h (not_or.2 ⟨hi, hd⟩)

/-- Settles O16: the operation and the turn of a HOST that waits in it look at the same TX_BUSY. -/
theorem drainWaitCompletesOrBlocks : Obligations.DrainWaitCompletesOrBlocks := by
  intro s hhost
  rw [exec_drainWait_of_free hhost]
  refine ⟨fun hq hp => ?_, fun hbusy => ?_⟩
  · rw [(txBusy_eq_false_iff s).2 ⟨hq, hp⟩]
    refine ⟨rfl, fun hd => ?_⟩
    rw [hostTurn_drain hd, (txBusy_eq_false_iff s).2 ⟨hq, hp⟩]
    rfl
  · rw [(txBusy_iff s).2 hbusy]
    refine ⟨rfl, fun hd => ?_⟩
    rw [hostTurn_drain hd, (txBusy_iff s).2 hbusy]
    rfl

/-! ### The start of a bit frame (R83) -/

/-- Settles O18: a shift drops one end of the register and brings a 0 in at the other. -/
theorem startBitTakesNextBit : Obligations.StartBitTakesNextBit := by
  intro sr nb s
  have hleft : sr <<< 1 = sr.extractLsb' 0 7 ++ 0#1 := BitVec.shiftLeft_eq_concat_of_lt (by decide)
  have hright : sr >>> 1 = 0#1 ++ sr.extractLsb' 1 7 := BitVec.ushiftRight_eq_extractLsb'_of_lt (by decide)
  refine ⟨fun hm => ?_, fun hm => ?_⟩
  · simp only [startBit, hm, if_true, hleft, Config.Params.pulses, BitVec.msb_eq_getLsbD_last]
  · simp only [startBit, hm, Bool.false_eq_true, if_false, hright, Config.Params.pulses]

/-! ### PTE_TICK, row by row (R81 to R86, R169) -/

theorem out_eq_true {s : State} (h : s.ph = .hi) : out s = true := beq_iff_eq.2 h

theorem out_eq_false {s : State} (h : s.ph ≠ .hi) : out s = false := beq_eq_false_iff_ne.2 h

/-- PTE_TICK shows the level of the line in the state that the tick leads to (R81, R172). -/
theorem exec_pteTick_of_tick {s t : State} {level : Bool} (h : tick s = t) (hout : out t = level) :
    exec .pteTick s = .next { t with trace := t.trace ++ [.out level] } := by
  subst h hout
  rfl

section Rows

variable {s : State}

theorem tick_idle_of_empty (hp : s.ph = .idle) (hq : s.txq = []) : tick s = s := by
  simp only [tick, hp, tickIdle, loadByte, hq]

theorem tick_idle_of_byte {d : Byte} {rest : List Byte} (hp : s.ph = .idle) (hq : s.txq = d :: rest) :
    tick s = startBit d 8#4 { s with txq := rest } := by
  simp only [tick, hp, tickIdle, loadByte, hq]

/-- While TMR is above 1 every phase but IDLE only counts. -/
theorem tick_of_counting (hp : s.ph ≠ .idle) (ht : 1 < s.tmr) : tick s = { s with tmr := s.tmr - 1 } := by
  cases h : s.ph with
  | idle => exact absurd h hp
  | hi => simp only [tick, h, tickHi, if_pos ht]
  | lo => simp only [tick, h, tickLo, if_pos ht]
  | gap => simp only [tick, h, tickGap, if_pos ht]

theorem tick_hi_falls (hp : s.ph = .hi) (ht : s.tmr ≤ 1) : tick s = { s with ph := .lo, tmr := s.cfg.tLo } := by
  simp only [tick, hp, tickHi, if_neg (Nat.not_lt.2 ht)]

theorem tick_lo_next_pulse (hp : s.ph = .lo) (ht : s.tmr ≤ 1) (hn : 0 < s.np) :
    tick s = { s with np := s.np - 1, ph := .hi, tmr := s.cfg.tHi } := by
  simp only [tick, hp, tickLo, if_neg (Nat.not_lt.2 ht), if_pos hn]

theorem tick_lo_gap (hp : s.ph = .lo) (ht : s.tmr ≤ 1) (hn : s.np = 0) :
    tick s = { s with ph := .gap, tmr := s.cfg.tGap } := by
  simp only [tick, hp, tickLo, if_neg (Nat.not_lt.2 ht), hn, Nat.lt_irrefl, if_false]

theorem tick_gap_next_bit (hp : s.ph = .gap) (ht : s.tmr ≤ 1) (hn : s.nb ≠ 0#4) : tick s = startBit s.sr s.nb s := by
  have hpos : 0#4 < s.nb := by bv_omega
  simp only [tick, hp, tickGap, if_neg (Nat.not_lt.2 ht), if_pos hpos]

/-- With no bit left a gap that has been counted ends as IDLE would go on, but idle if there is no byte (R86). -/
theorem tick_gap_last_bit (hp : s.ph = .gap) (ht : s.tmr ≤ 1) (hn : s.nb = 0#4) :
    tick s = loadByte s { s with ph := .idle, tmr := 0 } := by
  simp only [tick, hp, tickGap, if_neg (Nat.not_lt.2 ht), hn, BitVec.lt_irrefl, if_false]

theorem tick_gap_next_byte {d : Byte} {rest : List Byte} (hp : s.ph = .gap) (ht : s.tmr ≤ 1) (hn : s.nb = 0#4)
    (hq : s.txq = d :: rest) : tick s = startBit d 8#4 { s with txq := rest } := by
  rw [tick_gap_last_bit hp ht hn, loadByte, hq]

theorem tick_gap_idles (hp : s.ph = .gap) (ht : s.tmr ≤ 1) (hn : s.nb = 0#4) (hq : s.txq = []) :
    tick s = { s with ph := .idle, tmr := 0 } := by
  rw [tick_gap_last_bit hp ht hn, loadByte, hq]

theorem exec_pteTick_counting {level : Bool} (hp : s.ph ≠ .idle) (hout : out s = level) (ht : 1 < s.tmr) :
    exec .pteTick s = .next { s with tmr := s.tmr - 1, trace := s.trace ++ [.out level] } :=
  exec_pteTick_of_tick (tick_of_counting hp ht) hout

/-- Counting ticks: the line stays at its level while TMR goes down to 1. -/
theorem runOps_counting {level : Bool} (hp : s.ph ≠ .idle) (hout : out s = level) {k : Nat} (hk : k < s.tmr) :
    runOps (List.replicate k .pteTick) s =
      .next { s with tmr := s.tmr - k, trace := s.trace ++ List.replicate k (.out level) } := by
  induction k generalizing s with
  | zero => simp [runOps]
  | succ k ih =>
    have hrest := ih (s := { s with tmr := s.tmr - 1, trace := s.trace ++ [.out level] }) hp hout
      (Nat.lt_sub_of_add_lt hk)
    rw [List.replicate_succ, runOps, exec_pteTick_counting hp hout (by omega), andThen_next, hrest]
    simp [Nat.sub_sub, Nat.add_comm 1 k, List.replicate_succ]

end Rows

/-- Settles O19: the two rows of IDLE. -/
theorem tickInIdle : Obligations.TickInIdle := fun s hp =>
  ⟨fun _ _ hq => exec_pteTick_of_tick (tick_idle_of_byte hp hq) rfl,
    fun hq => exec_pteTick_of_tick (tick_idle_of_empty hp hq) (out_eq_false (by simp [hp]))⟩

/-- Settles O20: the rows of HI, and its count over many ticks. -/
theorem tickInHigh : Obligations.TickInHigh := by
  intro s hp
  have hbusy : s.ph ≠ .idle := by simp [hp]
  have hout : out s = true := out_eq_true hp
  exact ⟨exec_pteTick_counting hbusy hout, fun _ => runOps_counting hbusy hout,
    fun ht => exec_pteTick_of_tick (tick_hi_falls hp ht) rfl⟩

/-- Settles O21: the rows of LO. -/
theorem tickInLow : Obligations.TickInLow := by
  intro s hp
  have hout : out s = false := out_eq_false (by simp [hp])
  exact ⟨exec_pteTick_counting (by simp [hp]) hout,
    fun ht hn => exec_pteTick_of_tick (tick_lo_next_pulse hp ht hn) rfl,
    fun ht hn => exec_pteTick_of_tick (tick_lo_gap hp ht hn) rfl⟩

/-- Settles O22: the rows of GAP, and its count over many ticks. -/
theorem tickInGap : Obligations.TickInGap := by
  intro s hp
  have hbusy : s.ph ≠ .idle := by simp [hp]
  have hout : out s = false := out_eq_false (by simp [hp])
  exact ⟨exec_pteTick_counting hbusy hout, fun _ => runOps_counting hbusy hout,
    fun ht hn => exec_pteTick_of_tick (tick_gap_next_bit hp ht hn) rfl,
    fun _ _ ht hn hq => exec_pteTick_of_tick (tick_gap_next_byte hp ht hn hq) rfl,
    fun ht hn hq => exec_pteTick_of_tick (tick_gap_idles hp ht hn hq) rfl⟩

/-! ### PTE_TICK and a byte of HOST in one cycle (R90) -/

/-- The engine does not see the procedure that HOST is in. -/
theorem tick_with_host (s : State) (p : HostProc) : tick { s with host := p } = { tick s with host := p } := by
  rcases tick_cases s with ⟨hp, hq, e⟩ | ⟨d, rest, hp, hq, e⟩ | ⟨hp, ht, e⟩ | ⟨hp, ht, e⟩ | ⟨hp, ht, hn, e⟩ |
    ⟨hp, ht, hn, e⟩ | ⟨hp, ht, hn, e⟩ | ⟨d, rest, hp, ht, hn, hq, e⟩ | ⟨hp, ht, hn, hq, e⟩ <;> rw [e]
  · exact tick_idle_of_empty hp hq
  · exact tick_idle_of_byte hp hq
  · exact tick_of_counting hp ht
  · exact tick_hi_falls hp ht
  · exact tick_lo_next_pulse hp ht hn
  · exact tick_lo_gap hp ht hn
  · exact tick_gap_next_bit hp ht hn
  · exact tick_gap_next_byte hp ht hn hq
  · exact tick_gap_idles hp ht hn hq

section Cycle

variable {s t : State} (h : exec .pteTick s = .next t)
include h

theorem exec_pteTick_with_host (p : HostProc) : exec .pteTick { s with host := p } = .next { t with host := p } := by
  cases h
  exact exec_pteTick_of_tick (tick_with_host s p) rfl

theorem host_of_pteTick : t.host = s.host := by cases h; exact tick_host s

theorem presented_of_pteTick : presented t = presented s := by simp only [presented, host_of_pteTick h]

/-- PTE_TICK never fills TXQ: what has room before it has room after it. -/
theorem room_of_pteTick (hroom : s.txq.length < s.cfg.txqDepth) : t.txq.length < t.cfg.txqDepth := by
  cases h
  rw [observe_txq, observe_cfg, tick_cfg]
  rcases tick_txq s with hq | ⟨d, hq⟩
  · rwa [hq]
  · rw [hq, List.length_cons] at hroom
    exact Nat.lt_of_succ_lt hroom

end Cycle

section Listed

variable {r r₁ r₂ : Request} {s : State} {act : State → Answer} (ha : ActsAs r s.smpq act)
  (hp : presents (resolve r s) s = true) (hr : (r₁ = tickRequest ∧ r₂ = r) ∨ (r₁ = r ∧ r₂ = tickRequest))
include ha hp hr

/-- However the two are listed, a byte comes after the tick where TXQ has room at the start of the cycle, and before it
where TXQ is full (R90). -/
theorem performBoth_presents : performBoth r₁ r₂ s =
    if txFull s then andThen (act s) (exec .pteTick) else andThen (exec .pteTick s) act := by
  obtain ⟨hleft, hright⟩ := performBoth_tick_of_presents hp
  rw [ha.after_tick, ha s rfl] at hleft hright
  rcases hr with ⟨rfl, rfl⟩ | ⟨rfl, rfl⟩
  · exact hleft
  · exact hright

theorem performBoth_presents_of_room (hroom : s.txq.length < s.cfg.txqDepth) :
    performBoth r₁ r₂ s = andThen (exec .pteTick s) act := by
  rw [performBoth_presents ha hp hr, txFull_eq_false hroom]
  rfl

theorem performBoth_presents_of_full (hfull : s.txq.length = s.cfg.txqDepth) :
    performBoth r₁ r₂ s = andThen (act s) (exec .pteTick) := by
  rw [performBoth_presents ha hp hr, (txFull_iff s).2 hfull]
  rfl

end Listed

/-- The step on two requests of one cycle shows `smp_pending` and performs both (R52, log 18). -/
theorem step_of_sameCycle {s : State} {r₁ r₂ : Request} {rest : List Slot} (hl : s.cfg.Legal)
    (hs : s.script = .sameCycle r₁ r₂ :: rest) :
    step s = performBoth r₁ r₂ { s with script := rest, trace := s.trace ++ [.smpPending (smpPending s)] } :=
  step_of_script hl hs

/-- Settles O7: with TXQ full at the start of the cycle HOST presents its byte in vain, and the tick does what it does
without HOST. -/
theorem sameCycleTickThenEnqueue : Obligations.SameCycleTickThenEnqueue := by
  intro r₁ r₂ rest s u hl hs hu
  have hstep : step s = performBoth r₁ r₂ u := (step_of_sameCycle hl hs).trans (by rw [hu])
  have hhost : u.host = s.host := by rw [hu]
  have hpresented : presented u = presented s := by rw [hu]; rfl
  have htxq : u.txq = s.txq := by rw [hu]
  have hcfg : u.cfg = s.cfg := by rw [hu]
  obtain ⟨t, ht⟩ : ∃ t, exec .pteTick u = .next t := ⟨_, rfl⟩
  rw [hstep, ← hpresented, ← hhost, ← htxq, ← hcfg]
  refine ⟨t, ht, fun d hfree hr => ?_, fun d hd hr => ?_, fun hnone => ?_⟩
  · have ha := word_actsAs (decode_encode_enqueue d) u.smpq
    have hp := (presents_word_iff _ u).2 ⟨d, rfl⟩
    refine ⟨fun hroom => ?_, fun hfull => ?_⟩
    · have hidle : t.host = .idle := (host_of_pteTick ht).trans hfree
      rw [performBoth_presents_of_room ha hp hr hroom, ht, andThen_next,
        enqueueAccepted d t (.inl hidle) (room_of_pteTick ht hroom), ← hidle]
    · rw [performBoth_presents_of_full ha hp hr hfull, exec_enqueue_of_free (.inl hfree), presentByte_of_full d hfull,
        andThen_next, exec_pteTick_with_host ht]
  · have ha := hostTurn_actsAs u.smpq
    have hp : presents (resolve .hostTurn u) u = true :=
      (presents_resolve_iff _ u).2 (.inr ⟨rfl, by rw [hd]; nofun⟩)
    refine ⟨fun hroom => ⟨?_, ?_⟩, fun hfull => ?_⟩
    · rw [performBoth_presents_of_room ha hp hr hroom, ht, andThen_next]
    · have hdt : presented t = some d := (presented_of_pteTick ht).trans hd
      obtain ⟨v, hv, hkeep⟩ := (hostTurn_of_presented hdt).1 (room_of_pteTick ht hroom)
      exact ⟨v, hv, hkeep.txq, hkeep.accepted⟩
    · rw [performBoth_presents_of_full ha hp hr hfull, (hostTurn_of_presented hd).2 hfull, andThen_next, ht]
  · have hp : presents (resolve .hostTurn u) u = false := by simp [resolve, presents, hnone]
    obtain ⟨hleft, hright⟩ := performBoth_tick_of_not_presents hp
    refine ⟨?_, ?_⟩
    · rintro rfl rfl
      exact hleft.trans (by rw [ht]; rfl)
    · rintro rfl rfl
      exact hright

/-! ### What the line shows (R57, R70, R71, R87, R89) -/

/-- With the engine idle the line's future is that of the bytes in TXQ. -/
theorem lineFuture_of_idle {s : State} (hp : s.ph = .idle) : lineFuture s = waves s.cfg s.txq := by
  simp [lineFuture, restOfByte, hp]

theorem tick_shows_next {s : State} (hl : s.cfg.Legal) :
    lineFuture s = out (tick s) :: lineFuture (tick s) ∨
    (lineFuture s = [] ∧ lineFuture (tick s) = [] ∧ out (tick s) = false ∧ TransmitQuiescent (tick s)) := by
  rcases tick_lineFuture hl with ⟨hf, _⟩ | ⟨hf, hb⟩
  · exact .inl hf
  · obtain ⟨_, hidle⟩ := (txBusy_eq_false_iff _).1 hb
    exact .inr ⟨hf, lineFuture_of_quiet hb, out_eq_false (by simp [hidle]), hb⟩

/-- Settles O45: every row of R169 but those that end idle takes one level off the future. -/
theorem tickShowsLineFuture : Obligations.TickShowsLineFuture := fun s hs =>
  ⟨observe (.out (out (tick s))) (tick s), out (tick s), rfl, by rw [observe_trace, tick_trace], tick_shows_next hs.legal⟩

/-! ### Pulse ticks one after the other (R87, R88) -/

/-- The state after PTE_TICK, its level observed. -/
def afterTick (s : State) : State := observe (.out (out (tick s))) (tick s)

theorem exec_pteTick_eq (s : State) : exec .pteTick s = .next (afterTick s) := rfl

theorem runOps_pteTicks (k : Nat) (s : State) :
    runOps (List.replicate k .pteTick) s = .next (afterTick^[k] s) := by
  induction k generalizing s with
  | zero => rfl
  | succ k ih => rw [List.replicate_succ, runOps, exec_pteTick_eq, andThen_next, ih, Function.iterate_succ_apply]

@[simp] theorem afterTicks_cfg (k : Nat) (s : State) : (afterTick^[k] s).cfg = s.cfg := by
  induction k with
  | zero => rfl
  | succ k ih => rw [Function.iterate_succ_apply', afterTick, observe_cfg, tick_cfg, ih]

section Ticks

variable {s : State} (hl : s.cfg.Legal)
include hl

/-- Each tick takes one level off the line's future, until there is none. -/
theorem lineFuture_afterTicks (k : Nat) : lineFuture (afterTick^[k] s) = (lineFuture s).drop k := by
  induction k with
  | zero => rfl
  | succ k ih =>
    rw [Function.iterate_succ_apply', ← List.tail_drop, ← ih]
    rcases tick_shows_next (s := afterTick^[k] s) (by rwa [afterTicks_cfg]) with hf | ⟨hf, hf', _⟩ <;> rw [hf]
    · rfl
    · exact hf'

/-- As long as the line has a future, the ticks show it level by level. -/
theorem trace_afterTicks {k : Nat} (hk : k ≤ (lineFuture s).length) :
    (afterTick^[k] s).trace = s.trace ++ ((lineFuture s).take k).map .out := by
  induction k generalizing s with
  | zero => exact (List.append_nil _).symm
  | succ k ih =>
    have htrace : (afterTick s).trace = s.trace ++ [.out (out (tick s))] := by
      rw [afterTick, observe_trace, tick_trace]
    rcases tick_shows_next hl with hf | ⟨hf, _⟩
    · have hlen : k ≤ (lineFuture (afterTick s)).length := by
        rw [hf] at hk
        exact Nat.le_of_succ_le_succ hk
      rw [Function.iterate_succ_apply, ih (by rwa [afterTick, observe_cfg, tick_cfg]) hlen, htrace, hf,
        List.append_assoc]
      rfl
    · rw [hf] at hk
      exact absurd hk (Nat.not_succ_le_zero k)

/-- Each tick counts for the end of TX_BUSY. -/
theorem drainTicks_afterTicks (k : Nat) : drainTicks (afterTick^[k] s) = drainTicks s - k := by
  induction k with
  | zero => rfl
  | succ k ih =>
    rw [Function.iterate_succ_apply', ← Nat.sub_sub, ← ih]
    exact drainTicks_tick (by rwa [afterTicks_cfg])

end Ticks

/-- Settles O46: TXQ is all of an idle engine's future. -/
theorem lineIsConcatenatedWaves : Obligations.LineIsConcatenatedWaves := by
  intro s hl hp _
  refine ⟨_, runOps_pteTicks _ s, ?_⟩
  rw [← lineFuture_of_idle hp, trace_afterTicks hl le_rfl, List.take_length]

/-! ### The end of the last byte frame (R88) -/

/-- An engine that is not idle has a tick left to count (R38 items 2 to 4). -/
def TmrCounts (s : State) : Prop := s.ph ≠ .idle → 1 ≤ s.tmr

theorem tick_tmrCounts {s : State} (hl : s.cfg.Legal) (h : TmrCounts s) : TmrCounts (tick s) := by
  obtain ⟨_, _, _, _, _, hHi, hLo, hGap, _⟩ := hl
  rcases tick_cases s with ⟨_, _, e⟩ | ⟨_, _, _, _, e⟩ | ⟨_, ht, e⟩ | ⟨_, _, e⟩ | ⟨_, _, _, e⟩ | ⟨_, _, _, e⟩ |
    ⟨_, _, _, e⟩ | ⟨_, _, _, _, _, _, e⟩ | ⟨_, _, _, _, e⟩ <;> rw [e]
  · exact h
  · exact fun _ => hHi
  · exact fun _ => Nat.le_sub_of_add_le ht
  · exact fun _ => hLo
  · exact fun _ => hHi
  · exact fun _ => hGap
  · exact fun _ => hHi
  · exact fun _ => hHi
  · exact fun hp => absurd rfl hp

theorem afterTicks_tmrCounts {s : State} (hl : s.cfg.Legal) (h : TmrCounts s) (k : Nat) :
    TmrCounts (afterTick^[k] s) := by
  induction k with
  | zero => exact h
  | succ k ih =>
    rw [Function.iterate_succ_apply']
    exact tick_tmrCounts (s := afterTick^[k] s) (by rwa [afterTicks_cfg]) ih

theorem framesLeft_eq_nil {p : Config.Params} (hl : p.Legal) {n : Nat} {sr : Byte} (h : framesLeft p n sr = []) :
    n = 0 := by
  obtain ⟨_, _, _, _, _, _, _, hGap, _⟩ := hl
  cases n with
  | zero => rfl
  | succ n =>
    have hlen := congrArg List.length h
    rw [framesLeft, List.length_append, length_bitFrame, List.length_nil] at hlen
    omega

theorem waves_eq_nil {p : Config.Params} (hl : p.Legal) {ds : List Byte} (h : waves p ds = []) : ds = [] := by
  cases ds with
  | nil => rfl
  | cons d ds =>
    rw [waves, List.flatMap_cons, ← framesLeft_eight] at h
    cases framesLeft_eq_nil hl (List.append_eq_nil_iff.1 h).1

/-- A busy engine whose line has no future counts the last tick of the last gap. -/
theorem last_gap_tick {s : State} (hl : s.cfg.Legal) (ht : TmrCounts s) (hb : txBusy s = true) (hf : lineFuture s = []) :
    s.ph = .gap ∧ s.tmr = 1 ∧ s.nb = 0#4 ∧ s.txq = [] := by
  obtain ⟨hbyte, hwaves⟩ := List.append_eq_nil_iff.1 hf
  have hq : s.txq = [] := waves_eq_nil hl hwaves
  obtain ⟨_, _, _, _, _, _, hLo, hGap, _⟩ := id hl
  cases hp : s.ph with
  | idle =>
    rw [(txBusy_eq_false_iff s).2 ⟨hq, hp⟩] at hb
    cases hb
  | hi =>
    have hlen := congrArg List.length hbyte
    simp only [restOfByte, hp, List.length_append, List.length_replicate, List.length_nil] at hlen
    omega
  | lo =>
    have hlen := congrArg List.length hbyte
    simp only [restOfByte, hp, silence, List.length_append, List.length_replicate, List.length_nil] at hlen
    omega
  | gap =>
    rw [restOfByte, hp] at hbyte
    obtain ⟨hcounted, hleft⟩ := List.append_eq_nil_iff.1 hbyte
    have hlast : s.tmr - 1 = 0 := by simpa using hcounted
    have hpos : 1 ≤ s.tmr := ht (by simp [hp])
    have hnb : s.nb.toNat = 0 := framesLeft_eq_nil hl hleft
    exact ⟨rfl, by omega, BitVec.eq_of_toNat_eq hnb, hq⟩

/-- Settles O47: TX_BUSY lasts one tick longer than the line's future, so tick `L` leaves it one tick and no future. -/
theorem busyFallsOneTickAfterLastGap : Obligations.BusyFallsOneTickAfterLastGap := by
  intro s hl hp hq
  have hdrain : drainTicks s = (lineFuture s).length + 1 := drainTicks_of_busy ((txBusy_iff s).2 (.inl hq))
  rw [← lineFuture_of_idle hp]
  generalize ht : afterTick^[(lineFuture s).length] s = t
  have hlt : t.cfg.Legal := by rw [← ht]; rwa [afterTicks_cfg]
  have hone : drainTicks t = 1 := by rw [← ht, drainTicks_afterTicks hl, hdrain, Nat.add_sub_cancel_left]
  have hcounts : TmrCounts t := ht ▸ afterTicks_tmrCounts hl (fun hne => absurd hp hne) _
  have hfuture : lineFuture t = [] := by rw [← ht, lineFuture_afterTicks hl, List.drop_length]
  have hbusy : txBusy t = true := by
    by_contra hb
    rw [(drainTicks_eq_zero_iff t).2 (Bool.eq_false_of_not_eq_true hb)] at hone
    cases hone
  have hquiet : txBusy (afterTick t) = false :=
    (drainTicks_eq_zero_iff _).1 ((drainTicks_tick hlt).trans (by rw [hone]))
  obtain ⟨hgap, htmr, hnb, htxq⟩ := last_gap_tick hlt hcounts hbusy hfuture
  exact ⟨t, afterTick t, ht ▸ runOps_pteTicks _ s, hgap, htmr, hnb, htxq, hbusy, exec_pteTick_eq t,
    ((txBusy_eq_false_iff _).1 hquiet).2, hquiet⟩

/-! ### How long the drain takes at most (R88) -/

/-- The longest bit frame: an eighth of LMAX. -/
def longestBit (p : Config.Params) : Nat := max p.n0 p.n1 * (p.tHi + p.tLo) + p.tGap

theorem longestFrame_eq (p : Config.Params) : longestFrame p = 8 * longestBit p := rfl

theorem length_framesLeft_le (p : Config.Params) (n : Nat) (sr : Byte) :
    (framesLeft p n sr).length ≤ n * longestBit p := by
  induction n generalizing sr with
  | zero => exact Nat.zero_le _
  | succ n ih =>
    have hbit : p.pulses (if p.msbFirst then sr.msb else sr.getLsbD 0) * (p.tHi + p.tLo) ≤
        max p.n0 p.n1 * (p.tHi + p.tLo) := Nat.mul_le_mul_right _ (pulses_le p _)
    have hrest := ih (if p.msbFirst then sr <<< 1 else sr >>> 1)
    rw [framesLeft, List.length_append, length_bitFrame, Nat.succ_mul, longestBit]
    unfold longestBit at hrest
    omega

theorem length_waves_le (p : Config.Params) (ds : List Byte) : (waves p ds).length ≤ ds.length * longestFrame p := by
  induction ds with
  | nil => exact Nat.zero_le _
  | cons d ds ih =>
    have hd := length_framesLeft_le p 8 d
    rw [framesLeft_eight, ← longestFrame_eq] at hd
    rw [waves, List.flatMap_cons, List.length_append, List.length_cons, Nat.succ_mul, Nat.add_comm]
    exact Nat.add_le_add ih hd

theorem length_pulseTrain (p : Config.Params) (n : Nat) : (pulseTrain p n).length = n * (p.tHi + p.tLo) := by
  simp [pulseTrain, pulse]

/-- What is left of the byte in flight: the rest of a bit frame at most, and the frames of the at most 7 bits behind it. -/
theorem length_restOfByte_le {s : State} (hs : Inv s) : (restOfByte s).length ≤ longestFrame s.cfg := by
  obtain ⟨_, _, hN0, _⟩ := hs.legal
  have hN : 1 ≤ max s.cfg.n0 s.cfg.n1 := hN0.trans (Nat.le_max_left _ _)
  have hnp : s.np + 1 ≤ max s.cfg.n0 s.cfg.n1 := Nat.add_le_of_le_sub hN hs.engine.np
  have hpulses : (s.np + 1) * (s.cfg.tHi + s.cfg.tLo) ≤ max s.cfg.n0 s.cfg.n1 * (s.cfg.tHi + s.cfg.tLo) :=
    Nat.mul_le_mul_right _ hnp
  have hframes : (framesLeft s.cfg s.nb.toNat s.sr).length ≤ 7 * longestBit s.cfg :=
    (length_framesLeft_le _ _ _).trans (Nat.mul_le_mul_right _ hs.engine.nb)
  rw [Nat.succ_mul] at hpulses
  unfold longestBit at hframes
  cases hp : s.ph with
  | idle => simp [restOfByte, hp]
  | hi =>
    have htmr := hs.engine.hi hp
    simp only [restOfByte, hp, silence, List.length_append, List.length_replicate, length_pulseTrain, longestFrame]
    omega
  | lo =>
    have htmr := hs.engine.lo hp
    simp only [restOfByte, hp, silence, List.length_append, List.length_replicate, length_pulseTrain, longestFrame]
    omega
  | gap =>
    have htmr := hs.engine.gap hp
    simp only [restOfByte, hp, List.length_append, List.length_replicate, longestFrame]
    omega

/-- Settles O48: TX_BUSY lasts as long as the line's future, and one tick more. -/
theorem drainEndsWithinBound : Obligations.DrainEndsWithinBound := by
  intro s hs hb
  refine ⟨drainTicks s, afterTick^[drainTicks s] s, ?_, runOps_pteTicks _ s, ?_⟩
  · have hbyte := length_restOfByte_le hs
    have hwaves := length_waves_le s.cfg s.txq
    rw [drainTicks_of_busy hb, lineFuture, List.length_append, Nat.succ_mul]
    omega
  · exact (drainTicks_eq_zero_iff _).1 (by rw [drainTicks_afterTicks hs.legal, Nat.sub_self])

end Sys2Proof.Machine
end

section
/-! PROOFS. The sampler and the quadrature decoder (41_qdec.md). The class of each sample (R100); what SMP_CAPTURE queues
and loses (R97, R98); what QDEC_STEP takes and publishes (R99), and the step on its slot (R101). -/

namespace Sys2Proof.Machine

/-! ### The class of a sample (R63, R100) -/

/-- A sample has the phases `p` and `c` exactly when it is the sample `{c, p}`. -/
theorem phases_iff (x : Sample) (p c : PhaseValue) : previousPhase x = p ∧ currentPhase x = c ↔ x = sampleOf c p := by
  constructor
  · rintro ⟨rfl, rfl⟩
    exact (BitVec.extractLsb'_append_extractLsb' (w := 2) (len := 2)).symm
  · rintro rfl
    exact ⟨BitVec.extractLsb'_append_eq_right, BitVec.extractLsb'_append_eq_left⟩

/-- `classify` on the sample itself, the two transitions written as the samples `{c, p}` they are. -/
theorem classify_eq (x : Sample) :
    classify x = if x = 0x4#4 then .increase else if x = 0xB#4 then .decrease else .none := by
  simp only [classify, phases_iff]
  rfl

/-- Settles O3. -/
theorem sampleClassesByValue : Obligations.SampleClassesByValue := by
  intro x
  rw [classify_eq]
  split_ifs with hup hdown
  · subst hup; decide
  · subst hdown; decide
  · simp [hup, hdown]

/-! ### SMP_CAPTURE (R97, R98) -/

theorem pushSample_of_room {s : State} (x : Sample) (hroom : s.smpq.length < s.cfg.smpqDepth) :
    pushSample x s = { s with smpq := s.smpq ++ [x] } := if_pos hroom

theorem pushSample_of_full {s : State} (x : Sample) (hfull : s.cfg.smpqDepth ≤ s.smpq.length) : pushSample x s = s :=
  if_neg (Nat.not_lt.2 hfull)

theorem execSmpCapture_of_change {a b : Bool} {s : State} (h : phaseOf a b ≠ s.phase) : exec (.smpCapture a b) s =
    .next { pushSample (sampleOf (phaseOf a b) s.phase) s with phase := phaseOf a b, lines := phaseOf a b } := if_neg h

/-- Settles O23: the sample of a change is pushed or lost, and PHASE is updated after either. -/
theorem captureQueuesTransition : Obligations.CaptureQueuesTransition := by
  intro a b s h
  refine ⟨_, execSmpCapture_of_change h, fun hroom => ?_, fun hfull => ?_⟩
  · rw [pushSample_of_room _ hroom]
    rfl
  · rw [pushSample_of_full _ hfull.ge]
    rfl

/-! ### QDEC_STEP (R99, R101) -/

theorem publish_of_full {s : State} (e : KeyEvent) (hfull : cursorDistance (rptrSeen s) s.wptr = s.cfg.source.evqCap) :
    publish e s = s :=
  ((publish_cases e s).resolve_right fun ⟨hne, _⟩ => hne hfull).2

/-- The operation that a sample selects takes it from the head of SMPQ and publishes what its class asks for. -/
theorem exec_decodeSmp_of_head {x : Sample} {q : List Sample} {s : State} (h : s.smpq = x :: q) :
    exec (decodeSmp x) s = .next (publishSome (classify x).event { s with smpq := q, lastSample := x }) := by
  rcases qdecStep_cases x s with ⟨hne, _⟩ | ⟨rest, hrest, e⟩
  · exact absurd (h ▸ List.head?_cons) hne
  · obtain ⟨_, rfl⟩ := List.cons_eq_cons.1 (h.symm.trans hrest)
    rw [exec_decodeSmp, e]

/-- Settles O25: each operation is the one that its sample selects, and the sample's class says what is published. -/
theorem qdecStepTakesSample : Obligations.QdecStepTakesSample := by
  constructor
  case left =>
    intro r hr
    obtain ⟨hop, hvalue⟩ : r.2 = decodeSmp r.1 ∧ r.1 ≠ 0x4#4 ∧ r.1 ≠ 0xB#4 := by
      revert r
      decide
    intro q s hq
    have hnone : classify r.1 = .none := (sampleClassesByValue r.1).2.2.2 hvalue
    rw [hop, exec_decodeSmp_of_head hq, hnone]
    rfl
  case right =>
    intro x i code q s hrow hq
    obtain ⟨e, hop, he, hcode⟩ : ∃ e : KeyEvent, i = decodeSmp x ∧ (classify x).event = some e ∧ code = e.code := by
      rcases hrow with ⟨rfl, rfl, rfl⟩ | ⟨rfl, rfl, rfl⟩
      · exact ⟨.up, rfl, rfl, rfl⟩
      · exact ⟨.down, rfl, rfl, rfl⟩
    rw [hop, exec_decodeSmp_of_head hq, he, hcode]
    exact ⟨fun hne => congrArg _ (publish_of_room (s := { s with smpq := q, lastSample := x }) hne e),
      fun hfull => congrArg _ (publish_of_full (s := { s with smpq := q, lastSample := x }) e hfull)⟩

/-- Settles O5: QDEC's slot acts as the operation of the head sample, and as nothing where there is none. -/
theorem stepTakesHeadSample : Obligations.StepTakesHeadSample := fun _ _ hl hs =>
  ⟨fun _ _ hx hi => (step_of_script hl hs).trans (takeSample_actsAs hx hi _ rfl),
    fun hq => (step_of_script hl hs).trans (takeSample_actsAs_nil _ hq)⟩

end Sys2Proof.Machine
end

section
/-! PROOFS. The switch debouncer (42_debounce.md). The rows of DEB_TICK (R106); CNT over disagreeing ticks in a row and
the accept at the eleventh (R107, R109); and why fewer in a row accept nothing (R108). -/

namespace Sys2Proof.Machine

/-! ### The rows of DEB_TICK (R105, R106) -/

theorem exec_debTick (level : Bool) (s : State) : exec (.debTick level) s = .next (debounce level s) := rfl

@[simp] theorem acceptLevel_acc (level : Bool) (s : State) : (acceptLevel level s).acc = level := by simp [acceptLevel]

@[simp] theorem acceptLevel_cnt (level : Bool) (s : State) : (acceptLevel level s).cnt = 0#4 := by simp [acceptLevel]

theorem acceptLevel_false (s : State) : acceptLevel false s = { s with cnt := 0#4, acc := false } := rfl

theorem acceptLevel_true (s : State) : acceptLevel true s = publish .enter { s with cnt := 0#4, acc := true } := rfl

section Rows

variable {level : Bool} {s : State}

theorem debounce_agrees (h : level = s.acc) : debounce level s = { s with cnt := 0#4 } := if_pos h

theorem debounce_opens (hne : level ≠ s.acc) (h0 : s.cnt = 0#4) :
    debounce level s = { s with cnt := s.cfg.source.debTicks } := (if_neg hne).trans (if_pos h0)

theorem debounce_counts (hne : level ≠ s.acc) (h0 : s.cnt ≠ 0#4) (h1 : s.cnt ≠ 1#4) :
    debounce level s = { s with cnt := s.cnt - 1 } := by
  rcases debounce_cases level s with ⟨h, _⟩ | ⟨_, h, _⟩ | ⟨_, h, _⟩ | ⟨_, _, _, e⟩
  · exact absurd h hne
  · exact absurd h h0
  · exact absurd h h1
  · exact e

theorem debounce_accepts (hne : level ≠ s.acc) (h1 : s.cnt = 1#4) : debounce level s = acceptLevel level s := by
  rw [debounce, if_neg hne, h1]
  rfl

end Rows

/-- Settles O26: each row of R106; the PUBLISH of an accepted press stores its event or drops it. -/
theorem debounceTransitions : Obligations.DebounceTransitions := by
  intro level s hsrc
  refine ⟨fun he => ?agrees, fun hne h0 => ?opens, fun hne h0 h1 => ?counts, ?release, ?pressRoom, ?pressFull⟩
  case agrees => rw [exec_debTick, debounce_agrees he]
  case opens => rw [exec_debTick, debounce_opens hne h0, hsrc]
  case counts => rw [exec_debTick, debounce_counts hne h0 h1]
  case release =>
    rintro rfl hacc h1
    rw [exec_debTick, debounce_accepts (by simp [hacc]) h1, acceptLevel_false]
  case pressRoom =>
    rintro rfl hacc h1 hroom
    rw [exec_debTick, debounce_accepts (by simp [hacc]) h1, acceptLevel_true,
      publish_of_room (s := { s with cnt := 0#4, acc := true }) hroom]
    rfl
  case pressFull =>
    rintro rfl hacc h1 hfull
    rw [exec_debTick, debounce_accepts (by simp [hacc]) h1, acceptLevel_true,
      publish_of_full (s := { s with cnt := 0#4, acc := true }) .enter hfull]

/-! ### Disagreeing ticks in a row (R107) -/

theorem runOps_append_of_next {l m : List Instr} {s t : State} (h : runOps l s = .next t) :
    runOps (l ++ m) s = runOps m t := by
  induction l generalizing s with
  | nil =>
    cases h
    rfl
  | cons i l ih =>
    obtain ⟨u, hu, ht⟩ := andThen_eq_next h
    rw [List.cons_append, runOps, hu, andThen_next, ih ht]

theorem runOps_debTick_cons (level : Bool) (rest : List Instr) (s : State) :
    runOps (.debTick level :: rest) s = runOps rest (debounce level s) := rfl

theorem runOps_debTick (level : Bool) (s : State) : runOps [.debTick level] s = .next (debounce level s) := rfl

/-- CNT after `k` disagreeing ticks in a row from a closed window, for `k` at most 10 (R107). -/
def cntAfter (k : Nat) : BitVec 4 := if k = 0 then 0#4 else BitVec.ofNat 4 (11 - k)

theorem cntAfter_of_pos {k : Nat} (h : 1 ≤ k) : cntAfter k = BitVec.ofNat 4 (11 - k) := if_neg (Nat.ne_of_gt h)

theorem toNat_cntAfter {k : Nat} (h : 1 ≤ k) : (cntAfter k).toNat = 11 - k := by
  rw [cntAfter_of_pos h, BitVec.toNat_ofNat]
  omega

section Disagree

variable {level : Bool} {s : State} (hsrc : s.cfg.source = Config.document) (hne : level ≠ s.acc)
include hsrc hne

/-- A disagreeing tick that is not the eleventh opens the window or counts one down. -/
theorem debounce_disagrees {j : Nat} (hcnt : s.cnt = cntAfter j) (hj : j < 10) :
    debounce level s = { s with cnt := cntAfter (j + 1) } := by
  rcases Nat.eq_zero_or_pos j with rfl | hpos
  · rw [debounce_opens hne hcnt, hsrc]
    rfl
  · have hnow : s.cnt.toNat = 11 - j := hcnt ▸ toNat_cntAfter hpos
    have hnext : (cntAfter (j + 1)).toNat = 11 - (j + 1) := toNat_cntAfter (Nat.le_add_left 1 j)
    have hdown : s.cnt - 1 = cntAfter (j + 1) := by bv_omega
    rw [debounce_counts hne (by bv_omega) (by bv_omega), hdown]

theorem runOps_disagrees {j k : Nat} (hcnt : s.cnt = cntAfter j) (hjk : j + k ≤ 10) :
    runOps (List.replicate k (.debTick level)) s = .next { s with cnt := cntAfter (j + k) } := by
  induction k generalizing s j with
  | zero =>
    rw [Nat.add_zero, ← hcnt]
    rfl
  | succ k ih =>
    have hrest := ih (s := { s with cnt := cntAfter (j + 1) }) (j := j + 1) hsrc hne rfl (by omega)
    rw [List.replicate_succ, runOps_debTick_cons, debounce_disagrees hsrc hne hcnt (by omega), hrest, Nat.add_right_comm,
      Nat.add_assoc]

variable (hclosed : s.cnt = 0#4)
include hclosed

/-- From a closed window CNT is 1 after ten disagreeing ticks. -/
theorem runOps_ten_disagree : runOps (List.replicate 10 (.debTick level)) s = .next { s with cnt := 1#4 } :=
  runOps_disagrees hsrc hne (j := 0) hclosed (Nat.le_refl 10)

/-- From a closed window the eleventh disagreeing tick accepts. -/
theorem runOps_eleven_disagree : runOps (List.replicate 11 (.debTick level)) s = .next (acceptLevel level s) := by
  rw [List.replicate_succ', runOps_append_of_next (runOps_ten_disagree hsrc hne hclosed), runOps_debTick,
    debounce_accepts (s := { s with cnt := 1#4 }) hne rfl]
  rfl

end Disagree

/-! ### The events of an accepted change (R107, R117) -/

theorem length_unread (s : State) : (unread s).length = evCount s := by simp [unread]

/-- With exact cursors the producer sees room while fewer events are unread than the queue holds. -/
theorem room_of_exact {s : State} (hlag : s.cfg.evqLag = 0) (h : (unread s).length < s.cfg.source.evqCap) :
    cursorDistance (rptrSeen s) s.wptr ≠ s.cfg.source.evqCap := by
  rw [length_unread] at h
  rw [rptrSeen, if_pos hlag]
  exact Nat.ne_of_lt h

theorem unread_acceptLevel_false (s : State) : unread (acceptLevel false s) = unread s := unread_congr rfl rfl rfl

theorem unread_acceptLevel_true {s : State} (hq : QueueInv s)
    (hroom : cursorDistance (rptrSeen s) s.wptr ≠ s.cfg.source.evqCap) :
    unread (acceptLevel true s) = unread s ++ [KeyEvent.enter.code] :=
  unread_publish_of_room (s := { s with cnt := 0#4, acc := true }) hroom .enter { hq with }

/-- Settles O55: ten ticks bring CNT to 1, where an agreeing tick closes the window and a disagreeing one accepts. -/
theorem eleventhTickAccepts : Obligations.EleventhTickAccepts := by
  intro s hs hclosed
  obtain ⟨hsrc, _⟩ := id hs.legal
  have hne : (!s.acc) ≠ s.acc := Bool.not_ne_self s.acc
  refine ⟨fun k hk hk' => ?counted, ?gone, _, runOps_eleven_disagree hsrc hne hclosed,
    acceptLevel_acc .., acceptLevel_cnt .., fun hacc => ?release, fun hacc hlag hlen => ?press⟩
  case counted =>
    rw [runOps_disagrees hsrc hne (j := 0) hclosed (by omega), Nat.zero_add, cntAfter_of_pos hk]
  case gone =>
    rw [runOps_append_of_next (runOps_ten_disagree hsrc hne hclosed), runOps_debTick,
      debounce_agrees (s := { s with cnt := 1#4 }) rfl, ← hclosed]
  case release =>
    rw [hacc]
    exact unread_acceptLevel_false s
  case press =>
    have hcap : s.cfg.source.evqCap = 32 := by rw [hsrc]
    rw [hacc]
    exact unread_acceptLevel_true hs.queue (room_of_exact hlag (hcap ▸ hlen))

/-! ### No accept without eleven in a row (R108) -/

/-- If ACC changes over `levels`, and `k` disagreeing ticks came just before them, then eleven in a row disagreed. -/
theorem replicate_infix_of_accepts {levels : List Bool} {s t : State} {level : Bool}
    (hsrc : s.cfg.source = Config.document) (hne : level ≠ s.acc) {k : Nat} (hk : k ≤ 10) (hcnt : s.cnt = cntAfter k)
    (hrun : runOps (levels.map .debTick) s = .next t) (hacc : t.acc ≠ s.acc) :
    List.replicate 11 level <:+: List.replicate k level ++ levels := by
  induction levels generalizing s k with
  | nil =>
    cases hrun
    exact absurd rfl hacc
  | cons x rest ih =>
    rw [List.map_cons, runOps_debTick_cons] at hrun
    by_cases hx : x = s.acc
    · rw [debounce_agrees hx] at hrun
      have hrest : List.replicate 11 level <:+: rest :=
        ih (s := { s with cnt := 0#4 }) hsrc hne (Nat.zero_le 10) rfl hrun hacc
      exact (hrest.trans (List.suffix_cons x rest).isInfix).trans (List.suffix_append _ _).isInfix
    · obtain rfl : x = level := (Bool.eq_not.2 hx).trans (Bool.eq_not.2 hne).symm
      rw [List.append_cons, ← List.replicate_succ']
      rcases Nat.lt_or_eq_of_le hk with hlt | rfl
      · rw [debounce_disagrees hsrc hne hcnt hlt] at hrun
        exact ih (s := { s with cnt := cntAfter (k + 1) }) hsrc hne hlt rfl hrun hacc
      · exact (List.prefix_append _ _).isInfix

/-- Settles O56: before the first tick from a closed window none has disagreed. -/
theorem acceptNeedsElevenInARow : Obligations.AcceptNeedsElevenInARow := by
  intro levels s t hsrc hclosed hrun hacc
  obtain ⟨before, after, h⟩ :=
    replicate_infix_of_accepts hsrc (Bool.not_ne_self s.acc) (Nat.zero_le 10) hclosed hrun hacc
  exact ⟨before, after, h.symm⟩

end Sys2Proof.Machine
end

section
/-! PROOFS. The event queue (43_evq.md). PUBLISH and POLL with their next states (R114, R115); what they do to the unread
events (R117); who writes the ring and the cursors (R31, R119); and two operations on the queue in one cycle (R119,
R120). -/

namespace Sys2Proof.Machine

open Sys2Proof.Config (Request)

/-! ### PUBLISH and POLL (R114, R115) -/

theorem exec_publishInstr (e : KeyEvent) (s : State) : exec (publishInstr e) s = .next (publish e s) := by
  cases e <;> rfl

/-- Settles O27: each of the three operations is the PUBLISH of the event that its code stands for. -/
theorem publishStoresOrDrops : Obligations.PublishStoresOrDrops := by
  intro i code s hrow
  obtain ⟨e, rfl, rfl⟩ : ∃ e : KeyEvent, i = publishInstr e ∧ code = e.code := by
    rcases hrow with ⟨rfl, rfl⟩ | ⟨rfl, rfl⟩ | ⟨rfl, rfl⟩
    · exact ⟨.up, rfl, rfl⟩
    · exact ⟨.down, rfl, rfl⟩
    · exact ⟨.enter, rfl, rfl⟩
  rw [exec_publishInstr]
  exact ⟨fun hroom => congrArg _ (publish_of_room hroom e), fun hfull => congrArg _ (publish_of_full e hfull)⟩

theorem exec_poll_of_idle {s : State} (h : s.host = .idle) :
    exec .poll s = .next (observe (.polled (evr s)) (takeEvent s)) := if_pos h

theorem exec_noPoll_of_idle {s : State} (h : s.host = .idle) : exec .noPoll s = .next (observe (.peeked (evr s)) s) :=
  if_pos h

/-- Settles O28: POLL and the peek show the same answer, and only POLL takes the event. -/
theorem pollAnswersOldest : Obligations.PollAnswersOldest := by
  intro s hidle
  rw [exec_poll_of_idle hidle, exec_noPoll_of_idle hidle]
  rcases takeEvent_cases s with ⟨hnone, htake, hevr⟩ | ⟨hsome, htake, hevr⟩ <;> rw [htake, hevr]
  · exact ⟨fun _ => ⟨rfl, rfl⟩, fun hne => absurd hnone hne⟩
  · exact ⟨fun he => absurd he hsome, fun _ => ⟨rfl, rfl⟩⟩

/-! ### Exact cursors (R122) -/

section Exact

variable {s : State} (hlag : s.cfg.evqLag = 0)
include hlag

/-- The producer sees the true count of events (R30). -/
theorem cursorDistance_rptrSeen_of_exact : cursorDistance (rptrSeen s) s.wptr = evCount s := by
  rw [rptrSeen, if_pos hlag]
  rfl

/-- The consumer sees an empty queue exactly when no event is unread. -/
theorem wptrSeen_eq_rptr_iff_of_exact : wptrSeen s = s.rptr ↔ evCount s = 0 := by
  rw [wptrSeen, if_pos hlag, evCount, cursorDistance_eq_zero, eq_comm]

end Exact

/-! ### The unread events under PUBLISH and POLL (R116, R117) -/

/-- At most 32 events are unread (R116). -/
theorem length_unread_le {s : State} (h : QueueInv s) : (unread s).length ≤ 32 :=
  (length_unread s).trans_le (h.count.trans (evqCap_le h))

/-- Settles O51: a PUBLISH with room appends and one without changes nothing; what has grown by one is still at most 32
events. -/
theorem publishAppendsUnread : Obligations.PublishAppendsUnread := by
  intro e s t hs h
  rw [exec_publishInstr] at h
  cases h
  refine ⟨?either, fun hlag => ⟨fun hlt => ?_, fun happ => ?_⟩⟩
  case either =>
    rcases publish_cases e s with ⟨_, he⟩ | ⟨hroom, _⟩
    · exact .inr ⟨congrArg unread he, he⟩
    · exact .inl (unread_publish_of_room hroom e hs.queue)
  · obtain ⟨hsrc, _⟩ := id hs.legal
    have hcap : s.cfg.source.evqCap = 32 := by rw [hsrc]
    exact unread_publish_of_room (room_of_exact hlag (hcap ▸ hlt)) e hs.queue
  · have hmax := length_unread_le (publish_queueInv e hs.queue)
    rw [happ, List.length_append] at hmax
    exact hmax

/-- Where the consumer sees an event, POLL takes the first of the unread ones. -/
theorem unread_takeEvent {s : State} (h : QueueInv s) (hne : wptrSeen s ≠ s.rptr) :
    unread s = slotAt s s.rptr :: unread (takeEvent s) := by
  have hpos := h.count_pos hne
  obtain ⟨_, htake, _⟩ := (takeEvent_cases s).resolve_left fun ⟨heq, _⟩ => hne heq
  have hcount : evCount s = evCount (takeEvent s) + 1 := by
    have hless : evCount (takeEvent s) = evCount s - 1 := htake ▸ cursorDistance_succ_left_of_pos hpos
    omega
  have hnext (k : Nat) : s.rptr + BitVec.ofNat Config.document.evqPtrW (k + 1) =
      s.rptr + 1 + BitVec.ofNat Config.document.evqPtrW k := by
    rw [Nat.add_comm, BitVec.ofNat_add, ← add_assoc]
    rfl
  rw [unread, unread, hcount, List.range_succ_eq_map, List.map_cons, List.map_map, htake]
  refine congrArg₂ _ (congrArg (slotAt s) (BitVec.add_zero s.rptr)) (List.map_congr_left fun k _ => ?_)
  exact congrArg (slotAt s) (hnext k)

theorem unread_eq_nil {s : State} (h : evCount s = 0) : unread s = [] :=
  List.length_eq_zero_iff.1 ((length_unread s).trans h)

/-- Settles O52: the event at RPTR is the first of the unread ones. -/
theorem pollTakesOldestUnread : Obligations.PollTakesOldestUnread := by
  intro s hs hidle
  refine ⟨_, exec_poll_of_idle hidle, ?_⟩
  rcases takeEvent_cases s with ⟨hnone, htake, hevr⟩ | ⟨hsome, _, hevr⟩ <;> rw [hevr]
  · rw [htake]
    exact .inr ⟨rfl, rfl, fun hlag => unread_eq_nil ((wptrSeen_eq_rptr_iff_of_exact hlag).1 hnone)⟩
  · exact .inl ⟨slotAt s s.rptr, unread_takeEvent hs.queue hsome, by simp⟩

/-! ### Who writes the ring and the cursors (R28, R29, R31, R119) -/

theorem agentOf_decodeSmp (x : Sample) : agentOf (decodeSmp x) = .qdec := by
  revert x
  decide

theorem agentOf_of_decode_smp {x : Sample} {i : Instr} (h : decode (.smp x) = .op i) : agentOf i = .qdec := by
  cases h
  exact agentOf_decodeSmp x

/-- Each PUBLISH is one of QDEC's or of DEB's (R6). -/
theorem agentOf_publishInstr (e : KeyEvent) : agentOf (publishInstr e) = .qdec ∨ agentOf (publishInstr e) = .deb := by
  cases e <;> decide

section Writers

variable {i : Instr} {s t : State} (h : exec i s = .next t) (hr : i ≠ .reset)
include h hr

theorem exec_wptr_slot (hq : agentOf i ≠ .qdec) (hd : agentOf i ≠ .deb) : t.wptr = s.wptr ∧ t.slot = s.slot := by
  cases exec_effect h with
  | host _ h => rw [h.frame]; exact ⟨rfl, rfl⟩
  | takes x hi => exact absurd (agentOf_of_decode_smp hi) hq
  | debounces level => exact absurd rfl hd
  | publishes e => exact ((agentOf_publishInstr e).elim hq hd).elim
  | resets => exact absurd rfl hr
  | _ => simp

theorem exec_rptr (hp : i ≠ .poll) : t.rptr = s.rptr := by
  cases exec_effect h with
  | host hi _ => exact exec_host_rptr h hi hp
  | resets => exact absurd rfl hr
  | _ => simp

theorem exec_rptrP (hi : i ≠ .syncR) : t.rptrP = s.rptrP := by
  cases exec_effect h with
  | host _ h => rw [h.frame]
  | syncsR past => exact absurd rfl hi
  | resets => exact absurd rfl hr
  | _ => simp

theorem exec_wptrC (hi : i ≠ .syncW) : t.wptrC = s.wptrC := by
  cases exec_effect h with
  | host _ h => rw [h.frame]
  | syncsW past => exact absurd rfl hi
  | resets => exact absurd rfl hr
  | _ => simp

end Writers

/-- Settles O43: each of the four facts by everything an operation can do. -/
theorem cursorsSingleWriter : Obligations.CursorsSingleWriter :=
  fun _ _ _ h hr => ⟨exec_wptr_slot h hr, exec_rptr h hr, exec_rptrP h hr, exec_wptrC h hr⟩

/-! ### The two producers in one cycle (R119) -/

theorem resolve_word {w : PortWord} {i : Instr} (h : decode w = .op i) (s : State) : resolve (.word w) s = .op i := by
  simp only [resolve, actionOfWord, h]

theorem resolve_takeSample {x : Sample} {i : Instr} {s : State} (hx : s.smpq.head? = some x)
    (h : decode (.smp x) = .op i) : resolve .takeSample s = .op i := by
  obtain ⟨q, hq⟩ := List.head?_eq_some_iff.1 hx
  simp only [resolve, hq, actionOfWord, h]

theorem byQdec_op (i : Instr) : byQdec (.op i) = true ↔ agentOf i = .qdec := beq_iff_eq

theorem byDeb_op (i : Instr) : byDeb (.op i) = true ↔ agentOf i = .deb := beq_iff_eq

/-- An operation that may publish is no PTE_TICK, no POLL and no byte that HOST presents. -/
theorem not_tick_poll_presents_of_mayPublish {a : Action} (h : mayPublish a = true) (s : State) :
    isTick a = false ∧ isPoll a = false ∧ presents a s = false := by
  refine ⟨beq_eq_false_iff_ne.2 ?tick, beq_eq_false_iff_ne.2 ?poll, Bool.eq_false_iff.2 fun hp => ?presents⟩
  case tick => rintro rfl; cases h
  case poll => rintro rfl; cases h
  case presents =>
    cases a with
    | op i => obtain ⟨d, rfl⟩ := (presents_op_iff i s).1 hp; cases h
    | hostTurn | nothing | refuse r => cases h

theorem byQdec_eq_false_of_byDeb {a : Action} (h : byDeb a = true) : byQdec a = false := by
  cases a with
  | op i => exact beq_eq_false_iff_ne.2 fun hq => by rw [byDeb_op, hq] at h; cases h
  | hostTurn | nothing | refuse r => rfl

/-- The state in which the first of two producers acts: under ANY a free value was used to choose it (log 13). -/
def orderDrawn (s : State) : State := if s.cfg.evqArb = .any then { s with draws := s.draws + 1 } else s

@[simp] theorem orderDrawn_smpq (s : State) : (orderDrawn s).smpq = s.smpq := by
  unfold orderDrawn
  split <;> rfl

section Producers

variable {r r' r₁ r₂ : Request} {s : State} (hq : byQdec (resolve r s) = true) (hd : byDeb (resolve r' s) = true)
include hq hd

theorem goesFirst_qdec_deb : goesFirst (resolve r s) (resolve r' s) s = qdecFirst s ∧
    goesFirst (resolve r' s) (resolve r s) s = !qdecFirst s := by
  have hqm : mayPublish (resolve r s) = true := by simp [mayPublish, hq]
  have hdm : mayPublish (resolve r' s) = true := by simp [mayPublish, hd]
  obtain ⟨hqt, hqp, hqe⟩ := not_tick_poll_presents_of_mayPublish hqm s
  obtain ⟨hdt, hdp, hde⟩ := not_tick_poll_presents_of_mayPublish hdm s
  constructor
  · simp [goesFirst, hqt, hqp, hqe, hdt, hdp, hde, hq, hd]
  · simp [goesFirst, hqt, hqp, hqe, hdt, hdp, hde, hq, hd, byQdec_eq_false_of_byDeb hd]

theorem drawsOrder_qdec_deb : drawsOrder (resolve r s) (resolve r' s) s = (s.cfg.evqArb == .any) ∧
    drawsOrder (resolve r' s) (resolve r s) s = (s.cfg.evqArb == .any) := by
  simp [drawsOrder, hq, hd]

/-- However the two are listed, the queue takes QDEC and DEB in the order EVQ_ARB gives (R119). -/
theorem performBoth_qdec_deb (hr : (r₁ = r ∧ r₂ = r') ∨ (r₁ = r' ∧ r₂ = r)) : performBoth r₁ r₂ s =
    if qdecFirst s then andThen (performRequest r (orderDrawn s)) (performRequest r')
    else andThen (performRequest r' (orderDrawn s)) (performRequest r) := by
  obtain ⟨hfirst, hfirst'⟩ := goesFirst_qdec_deb hq hd
  obtain ⟨hdraws, hdraws'⟩ := drawsOrder_qdec_deb hq hd
  rcases hr with ⟨rfl, rfl⟩ | ⟨rfl, rfl⟩
  · simp only [performBoth, orderDrawn, hfirst, hdraws, beq_iff_eq]
  · simp only [performBoth, orderDrawn, hfirst', hdraws', beq_iff_eq]
    cases qdecFirst s <;> rfl

end Producers

/-- Settles O9: DEB_TICK leaves SMPQ alone, so QDEC takes the same sample in either order. -/
theorem sameCycleProducersArbitrated : Obligations.SameCycleProducersArbitrated := by
  intro x i level rest s u r₁ r₂ hl hx hi hs hr hu
  obtain ⟨q, hq⟩ := List.head?_eq_some_iff.1 hx
  have hpending : smpPending s = true := by simp [smpPending, hq]
  have hstep : step s = performBoth r₁ r₂ u := (step_of_sameCycle hl hs).trans (by rw [hu, hpending])
  have hux : u.smpq.head? = some x := by rw [hu]; exact hx
  have hcfg : u.cfg = s.cfg := by rw [hu]
  have hdraws : u.draws = s.draws := by rw [hu]
  have hdeb : decode (encode (.debTick level)) = .op (.debTick level) := decode_encode _
  have hdebActs : performRequest (.word (encode (.debTick level))) = exec (.debTick level) :=
    funext fun v => word_actsAs hdeb v.smpq v rfl
  have hqdecActs : ActsAs .takeSample u.smpq (exec i) := takeSample_actsAs hux hi
  have hqdecFirst : performRequest .takeSample (orderDrawn u) = exec i (orderDrawn u) := hqdecActs _ (by simp)
  have hqdecSecond : andThen (exec (.debTick level) (orderDrawn u)) (performRequest .takeSample) =
      andThen (exec (.debTick level) (orderDrawn u)) (exec i) := hqdecActs (debounce level (orderDrawn u)) (by simp)
  have hboth := performBoth_qdec_deb (by rw [resolve_takeSample hux hi, byQdec_op, agentOf_of_decode_smp hi])
    (by rw [resolve_word hdeb u]; rfl) hr
  rw [hdebActs, hqdecFirst, hqdecSecond] at hboth
  rw [hstep, hboth, orderDrawn, qdecFirst, hcfg, hdraws]
  refine ⟨fun harb => ?_, fun harb => ?_, fun harb => ?_⟩ <;> rw [harb]
  · rfl
  · rfl
  · exact ite_eq_or_eq ..

/-! ### A producer and POLL in one cycle (R120) -/

/-- However the two are listed, the publish comes first where the queue is full, and the POLL where it is not (R120). -/
theorem performBoth_producer_poll {r r₁ r₂ : Request} {s : State} (hm : mayPublish (resolve r s) = true)
    (hr : (r₁ = r ∧ r₂ = .word (.popw 1#1)) ∨ (r₁ = .word (.popw 1#1) ∧ r₂ = r)) : performBoth r₁ r₂ s =
    if evqFull s then andThen (performRequest r s) (exec .poll) else andThen (exec .poll s) (performRequest r) := by
  have hpoll : resolve (.word (.popw 1#1)) s = .op .poll := rfl
  have hact : performRequest (.word (.popw 1#1)) = exec .poll := rfl
  obtain ⟨htick, _, hpres⟩ := not_tick_poll_presents_of_mayPublish hm s
  rcases hr with ⟨rfl, rfl⟩ | ⟨rfl, rfl⟩
  · have hdraw : drawsOrder (resolve r₁ s) (.op .poll) s = false := by simp [drawsOrder, byQdec, byDeb, agentOf]
    have hfirst : goesFirst (resolve r₁ s) (.op .poll) s = evqFull s := by simp [goesFirst, htick, hpres, hm, isPoll]
    simp only [performBoth, hpoll, hact, hdraw, hfirst, Bool.false_eq_true, if_false]
  · have hdraw : drawsOrder (.op .poll) (resolve r₂ s) s = false := by simp [drawsOrder, byQdec, byDeb, agentOf]
    have hnone : mayPublish (.op .poll) = false := rfl
    have hfirst : goesFirst (.op .poll) (resolve r₂ s) s = !evqFull s := by
      simp [goesFirst, htick, hpres, hm, hnone, isPoll]
    simp only [performBoth, hpoll, hact, hdraw, hfirst, Bool.false_eq_true, if_false]
    cases evqFull s <;> rfl

/-- In `v`, whatever POLL has done before it, the request publishes `e`; `u` is what the rest of its operation leaves,
which is none of the queue's business. -/
structure PublishesFrom (r : Request) (e : KeyEvent) (v u : State) : Prop where
  producer : mayPublish (resolve r v) = true
  act : ∀ c tr, performRequest r { v with rptr := c, trace := tr } = .next (publish e { u with rptr := c, trace := tr })
  wptr : u.wptr = v.wptr
  slot : u.slot = v.slot
  rptr : u.rptr = v.rptr
  cfg : u.cfg = v.cfg
  host : u.host = v.host
  trace : u.trace = v.trace

theorem publish_publishesFrom (e : KeyEvent) (v : State) : PublishesFrom (.word (.evc e.code)) e v v := by
  have hword : decode (.evc e.code) = .op (publishInstr e) := decode_of_encode (encode_publishInstr e)
  refine ⟨?_, fun c tr => ?_, rfl, rfl, rfl, rfl, rfl, rfl⟩
  · rw [resolve_word hword, mayPublish, Bool.or_eq_true, byQdec_op, byDeb_op]
    exact agentOf_publishInstr e
  · rw [word_actsAs hword v.smpq { v with rptr := c, trace := tr } rfl, exec_publishInstr]

theorem takeSample_publishesFrom {x : Sample} {q : List Sample} {e : KeyEvent} {v : State} (hq : v.smpq = x :: q)
    (he : (classify x).event = some e) : PublishesFrom .takeSample e v { v with smpq := q, lastSample := x } := by
  have hword : decode (.smp x) = .op (decodeSmp x) := rfl
  have hx : v.smpq.head? = some x := hq ▸ List.head?_cons
  refine ⟨?_, fun c tr => ?_, rfl, rfl, rfl, rfl, rfl, rfl⟩
  · rw [resolve_takeSample hx hword, mayPublish, (byQdec_op _).2 (agentOf_decodeSmp x), Bool.true_or]
  · rw [takeSample_actsAs hx hword { v with rptr := c, trace := tr } rfl,
      exec_decodeSmp_of_head (s := { v with rptr := c, trace := tr }) hq, he]
    rfl

theorem debTick_publishesFrom {v : State} (hacc : v.acc = false) (hcnt : v.cnt = 1#4) :
    PublishesFrom (.word (.dbw 0b11#2)) .enter v { v with acc := true, cnt := 0#4 } := by
  have hword : decode (.dbw 0b11#2) = .op (.debTick true) := decode_of_encode rfl
  have hne : true ≠ v.acc := by simp [hacc]
  refine ⟨rfl, fun c tr => ?_, rfl, rfl, rfl, rfl, rfl, rfl⟩
  rw [word_actsAs hword v.smpq { v with rptr := c, trace := tr } rfl, exec_debTick,
    debounce_accepts (s := { v with rptr := c, trace := tr }) hne hcnt, acceptLevel_true]

section Cycle

variable {r r₁ r₂ : Request} {e : KeyEvent} {v u : State} (hlag : v.cfg.evqLag = 0) (hp : PublishesFrom r e v u)
  (hr : (r₁ = r ∧ r₂ = .word (.popw 1#1)) ∨ (r₁ = .word (.popw 1#1) ∧ r₂ = r))
include hlag hp hr

/-- Queue full: the publish is dropped, although the POLL frees a slot. -/
theorem performBoth_producer_poll_of_full (hidle : v.host = .idle) (hfull : evCount v = v.cfg.source.evqCap)
    (hsome : evCount v ≠ 0) : performBoth r₁ r₂ v = .next { u with
      rptr := v.rptr + 1, trace := u.trace ++ [.polled (1#1 ++ slotAt v v.rptr)] } := by
  have hseen : cursorDistance (rptrSeen v) v.wptr = v.cfg.source.evqCap :=
    (cursorDistance_rptrSeen_of_exact hlag).trans hfull
  have hlagu : u.cfg.evqLag = 0 := hp.cfg ▸ hlag
  have hcount : evCount u = evCount v := by rw [evCount, evCount, hp.rptr, hp.wptr]
  have hact : performRequest r v = .next (publish e u) := by
    have h : performRequest r v = .next (publish e { u with rptr := v.rptr, trace := v.trace }) := hp.act v.rptr v.trace
    rwa [← hp.rptr, ← hp.trace] at h
  have hdrop : publish e u = u :=
    publish_of_full e (by rw [cursorDistance_rptrSeen_of_exact hlagu, hcount, hfull, hp.cfg])
  have husome : wptrSeen u ≠ u.rptr := by rwa [Ne, wptrSeen_eq_rptr_iff_of_exact hlagu, hcount]
  rw [performBoth_producer_poll hp.producer hr, if_pos ((evqFull_iff v).2 hseen), hact, hdrop, andThen_next,
    ((pollAnswersOldest u (hp.host.trans hidle)).2 husome).1]
  simp only [slotAt, hp.slot, hp.rptr]

/-- Queue not full: the publish acts on the queue as POLL leaves it, which has room still. -/
theorem performBoth_producer_poll_of_room (hroom : evCount v ≠ v.cfg.source.evqCap) {c : Cursor} {tr : List Observation}
    (hpoll : exec .poll v = .next { v with rptr := c, trace := tr })
    (hleft : cursorDistance c v.wptr ≠ v.cfg.source.evqCap) :
    performBoth r₁ r₂ v = .next { u with
      wptr := v.wptr + 1, slot := v.slot.set (slotIndex v.wptr) e.code (slotIndex_lt v.wptr),
      rptr := c, trace := tr } := by
  have hnotFull : ¬ evqFull v = true := by rwa [evqFull_iff, cursorDistance_rptrSeen_of_exact hlag]
  rw [performBoth_producer_poll hp.producer hr, if_neg hnotFull, hpoll, andThen_next, hp.act,
    publish_of_room (s := { u with rptr := c, trace := tr }) (by simpa [rptrSeen, hp.wptr, hp.cfg, hlag] using hleft)]
  simp only [hp.slot, hp.wptr]

/-- R120 with its three cases, in the state that the cycle acts on. -/
theorem performBoth_producer_poll_cases (hidle : v.host = .idle) (hcap : v.cfg.source.evqCap = 32) :
    (evCount v = 32 → performBoth r₁ r₂ v = .next { u with
      rptr := v.rptr + 1, trace := u.trace ++ [.polled (1#1 ++ slotAt v v.rptr)] }) ∧
    (evCount v = 0 → performBoth r₁ r₂ v = .next { u with
      wptr := v.wptr + 1, slot := v.slot.set (slotIndex v.wptr) e.code (slotIndex_lt v.wptr),
      trace := u.trace ++ [.polled 0b000#3] }) ∧
    (evCount v ≠ 0 → evCount v < 32 → performBoth r₁ r₂ v = .next { u with
      wptr := v.wptr + 1, slot := v.slot.set (slotIndex v.wptr) e.code (slotIndex_lt v.wptr),
      rptr := v.rptr + 1, trace := u.trace ++ [.polled (1#1 ++ slotAt v v.rptr)] }) := by
  obtain ⟨hnone, hsome⟩ := pollAnswersOldest v hidle
  rw [wptrSeen_eq_rptr_iff_of_exact hlag] at hnone
  rw [Ne, wptrSeen_eq_rptr_iff_of_exact hlag] at hsome
  refine ⟨fun hfull => ?full, fun hempty => ?empty, fun hne hlt => ?between⟩
  case full => exact performBoth_producer_poll_of_full hlag hp hr hidle (hfull.trans hcap.symm) (by omega)
  case empty =>
    have hroom : evCount v ≠ v.cfg.source.evqCap := by omega
    rw [performBoth_producer_poll_of_room hlag hp hr hroom (hnone hempty).1 hroom, hp.trace, ← hp.rptr]
  case between =>
    have hless : cursorDistance (v.rptr + 1) v.wptr = evCount v - 1 :=
      cursorDistance_succ_left_of_pos (Nat.pos_of_ne_zero hne)
    rw [performBoth_producer_poll_of_room hlag hp hr (by omega) (hsome hne).1 (by omega), hp.trace]

end Cycle

/-- Settles O8: each of the three requests publishes its event, and what else it does is none of the queue's business. -/
theorem sameCyclePublishAndPoll : Obligations.SameCyclePublishAndPoll := by
  intro e producer r₁ r₂ rest s u hl hlag hidle hs hr hcase
  obtain ⟨hsrc, _⟩ := id hl
  have hcap : s.cfg.source.evqCap = 32 := by rw [hsrc]
  have hp : PublishesFrom producer e { s with script := rest, trace := s.trace ++ [.smpPending (smpPending s)] } u := by
    rcases hcase with ⟨rfl, rfl⟩ | ⟨x, q, rfl, hq, hx, rfl⟩ | ⟨rfl, rfl, hacc, hcnt, rfl⟩
    · exact publish_publishesFrom e _
    · have he : (classify x).event = some e := by rcases hx with ⟨rfl, rfl⟩ | ⟨rfl, rfl⟩ <;> rfl
      exact takeSample_publishesFrom (v := { s with script := rest, trace := _ }) hq he
    · exact debTick_publishesFrom (v := { s with script := rest, trace := _ }) hacc hcnt
  rw [step_of_sameCycle hl hs]
  exact performBoth_producer_poll_cases (v := { s with script := rest, trace := _ }) hlag hp hr hidle hcap

end Sys2Proof.Machine
end

section
/-! PROOFS. The host contract (44_host_tape.md). What VALIDATE reads and answers (R126 to R129); what a turn of HOST hands
over (R78, R132, R133); and SEND from its start to its return (R130 to R135). -/

namespace Sys2Proof.Machine

/-! ### The bytes that VALIDATE reads (R46, R68) -/

/-- A read of one byte is a matter of that byte alone. -/
theorem memRead_one_congr {buf buf' : List Byte} {k : Nat} (h : buf'[k]? = buf[k]?) :
    memRead buf' k 1 = memRead buf k 1 := by
  simp only [memRead, List.take_one, List.head?_drop, h]

/-- A byte below the length, as the function `b` gives the bytes, is the byte read. -/
theorem memRead_one_of_getElem? {buf : List Byte} {k v : Nat} (h : (buf[k]?).map BitVec.toNat = some v) :
    memRead buf k 1 = v := by
  obtain ⟨d, hd, rfl⟩ := Option.map_eq_some_iff.1 h
  obtain ⟨hk, rfl⟩ := List.getElem?_eq_some_iff.1 hd
  exact memRead_one hk

/-- The end pointer is two bytes read one by one. -/
theorem effectiveLength_eq_bytes {p : Config.Params} {buf : List Byte} (hp : p.source = Config.document)
    (h : 12 < buf.length) :
    effectiveLength p buf = (memRead buf 11 1 : Int) + 256 * (memRead buf 12 1 : Int) - 0x4009 := by
  rw [effectiveLength_eq hp h, memRead_one h, memRead_one (Nat.lt_of_succ_lt h)]

/-! ### VALIDATE (R126 to R129) -/

theorem exec_validate_of_idle {buf : List Byte} {n : Nat} {s : State} (hi : s.host = .idle) (hb : ImageOk s.cfg buf n) :
    exec (.validate buf n) s = .next (observe (.validated (validateResult s.cfg buf n)) s) :=
  (if_neg (not_not.2 hb)).trans (if_pos hi)

/-- The checks in their order, with the two of step 1.3 taken together, over a function that gives the bytes. -/
theorem validateResult_eq_of_bytes {p : Config.Params} {buf : List Byte} {n : Nat} {b : Nat → Nat} {L : Int}
    (hp : p.source = Config.document) (hn : n ≤ buf.length)
    (hb : ∀ k, k < buf.length → (buf[k]?).map BitVec.toNat = some (b k))
    (hL : L = (b 11 : Int) + 256 * (b 12 : Int) - 0x4009) :
    validateResult p buf n =
      if n ≤ 120 then .raised (.invalidImage .tooShort)
      else if b 0 ≠ 0 then .raised (.invalidImage .badMarker)
      else if L ≤ 0 ∨ (n : Int) < L then .raised (.invalidImage .lengthMismatch)
      else if b (L.toNat - 1) ≠ 0x80 then .raised (.invalidImage .missingTerminator)
      else .ok L.toNat := by
  have hread (k : Nat) (hk : k < buf.length) : memRead buf k 1 = b k := memRead_one_of_getElem? (hb k hk)
  rw [validateResult, validateImage_eq hp]
  by_cases hshort : n ≤ 120
  · simp only [if_pos hshort, raise]
  have hlen : effectiveLength p buf = L := by
    rw [effectiveLength_eq_bytes hp (by omega), hread 11 (by omega), hread 12 (by omega), hL]
  rw [if_neg hshort, if_neg hshort, hlen, hread 0 (by omega)]
  by_cases hmark : b 0 ≠ 0
  · simp only [if_pos hmark, raise]
  rw [if_neg hmark, if_neg hmark]
  by_cases hneg : L ≤ 0
  · simp only [if_pos hneg, if_pos (Or.inl hneg), raise]
  by_cases hlong : (n : Int) < L
  · simp only [if_neg hneg, if_pos hlong, if_pos (Or.inr hlong), raise]
  rw [if_neg hneg, if_neg hlong, if_neg (not_or.2 ⟨hneg, hlong⟩), hread _ (by omega)]
  by_cases hterm : b (L.toNat - 1) ≠ 0x80
  · simp only [if_pos hterm, raise]
  · simp only [if_neg hterm]

/-- Settles O30: VALIDATE only observes its result. -/
theorem validateChecksInOrder : Obligations.ValidateChecksInOrder := by
  intro buf n s b L hp hi hmax hlen hb hL
  rw [exec_validate_of_idle hi ((imageOk_iff hp buf n).2 ⟨hmax, hlen⟩), validateResult_eq_of_bytes hp hlen hb hL]
  rfl

/-- The terminator of an accepted image is neither its first byte nor a byte of its end pointer: byte 0 is `0x00`, and an
end pointer to one of its own two bytes would hold another value there than `0x80`. -/
theorem terminator_apart {p : Config.Params} {buf : List Byte} {n L : Nat} (hp : p.source = Config.document)
    (hb : ImageOk p buf n) (h : validateImage p buf n = .ok L) : L - 1 ≠ 0 ∧ L - 1 ≠ 11 ∧ L - 1 ≠ 12 := by
  obtain ⟨hn, hmark, _, _, hlen, hterm⟩ := (validateImage_eq_ok_iff hp buf n L).1 h
  rw [effectiveLength_eq_bytes hp (by have := hb.2; omega)] at hlen
  refine ⟨fun h0 => ?_, fun h11 => ?_, fun h12 => ?_⟩
  · rw [h0, hmark] at hterm
    cases hterm
  · rw [h11] at hterm
    omega
  · rw [h12] at hterm
    omega

/-- Settles O57: all that VALIDATE reads before the terminator is as it was. -/
theorem terminatorFlipRejects : Obligations.TerminatorFlipRejects := by
  intro p buf n L x hp hb h hx
  obtain ⟨h0, h11, h12⟩ := terminator_apart hp hb h
  obtain ⟨hn, hmark, hpos, hLn, hlen, _⟩ := (validateImage_eq_ok_iff hp buf n L).1 h
  have hbuf : n ≤ buf.length := hb.2
  have hsame {k : Nat} (hk : L - 1 ≠ k) : memRead (buf.set (L - 1) x) k 1 = memRead buf k 1 :=
    memRead_one_congr (List.getElem?_set_ne hk)
  have hlen' : effectiveLength p (buf.set (L - 1) x) = L := by
    rw [← hlen, effectiveLength_eq_bytes hp (by rw [List.length_set]; omega), effectiveLength_eq_bytes hp (by omega),
      hsame h11, hsame h12]
  have hterm : memRead (buf.set (L - 1) x) (L - 1) 1 = x.toNat := by
    rw [memRead_one (by rw [List.length_set]; omega), List.getElem_set_self]
  have hx' : x.toNat ≠ 0x80 := fun hv => hx (BitVec.eq_of_toNat_eq hv)
  rw [validateImage_eq hp, hlen', hsame h0, Int.toNat_natCast, hterm, if_neg (by omega), if_neg (not_not.2 hmark),
    if_neg (by omega), if_neg (by omega), if_pos hx']

/-- Settles O58: VALIDATE reads byte 0, the end pointer and the byte at `L - 1`. -/
theorem acceptedLengthBounds : Obligations.AcceptedLengthBounds := by
  intro p buf buf' n L hp hb hb' h
  obtain ⟨h0, _, _⟩ := terminator_apart hp hb h
  obtain ⟨hn, hmark, hpos, hLn, hlen, hterm⟩ := (validateImage_eq_ok_iff hp buf n L).1 h
  refine ⟨by omega, hLn, hn, fun hsame => (validateImage_eq_ok_iff hp buf' n L).2 ⟨hn, ?_, hpos, hLn, ?_, ?_⟩⟩
  · rw [memRead_one_congr (hsame 0 (.inl hpos)), hmark]
  · have hbuf := hb.2
    have hbuf' := hb'.2
    rw [← hlen, effectiveLength_eq_bytes hp (by omega), effectiveLength_eq_bytes hp (by omega),
      memRead_one_congr (hsame 11 (.inr (.inl rfl))), memRead_one_congr (hsame 12 (.inr (.inr rfl)))]
  · rw [memRead_one_congr (hsame (L - 1) (.inl (by omega))), hterm]

/-! ### The start of SEND (R130, R131, R135) -/

theorem exec_send_of_idle {name buf : List Byte} {n : Nat} {s : State} (hi : s.host = .idle) (hb : ImageOk s.cfg buf n)
    (hn : NameOk name) : exec (.send name buf n) s = .next (beginSend name buf n s) := by
  change execSend name buf n s = _
  rw [execSend, if_neg (not_not.2 hb), if_neg (not_not.2 hn), hi]

theorem beginSend_of_ok {name buf : List Byte} {n L : Nat} {s : State} (h : validateImage s.cfg buf n = .ok L) :
    beginSend name buf n s = { s with host := .settle s.cfg.tSettle name (buf.take L) } := by
  rw [beginSend, h]

theorem beginSend_of_error {name buf : List Byte} {n : Nat} {c : SubCause} {s : State}
    (h : validateImage s.cfg buf n = .error c) : beginSend name buf n s = observe (.sent (raise c)) s := by
  rw [beginSend, h]

/-- Settles O32: SEND asks the same checks as VALIDATE. -/
theorem sendStartsOrFails : Obligations.SendStartsOrFails := by
  intro name buf n s hi hb hname
  have hn : NameOk name := by simpa only [NameOk, BitVec.msb_eq_getLsbD_last] using hname
  rw [exec_validate_of_idle hi hb, exec_send_of_idle hi hb hn, validateResult]
  refine ⟨fun L h => ?_, fun c h => ?_⟩
  · rw [beginSend_of_ok h, h]
    exact ⟨rfl, rfl⟩
  · rw [beginSend_of_error h, h]
    exact ⟨rfl, rfl⟩


/-! ### What a turn of HOST hands over (R78, R132, R133) -/

/-- What a turn comes to: HOST goes on or waits with all it has to send, or it hands over the next byte where TXQ has
room. -/
inductive TurnEffect (s : State) : State → Prop
  | waits (p : HostProc) (tr : List Observation) (hp : bytesToSend p = bytesToSend s.host)
    (ha : acceptedBytes tr = acceptedBytes s.trace) : TurnEffect s { s with host := p, trace := tr }
  | sends (d : Byte) (p : HostProc) (tr : List Observation) (hp : bytesToSend s.host = d :: bytesToSend p)
    (ha : acceptedBytes tr = acceptedBytes s.trace ++ [d]) :
    TurnEffect s { s with txq := s.txq ++ [d], host := p, trace := tr }

theorem TurnEffect.refl (s : State) : TurnEffect s s := .waits s.host s.trace rfl rfl

theorem TurnEffect.drainReturns {s : State} (h : bytesToSend s.host = []) : TurnEffect s (drainReturns s) :=
  .waits .idle _ h.symm (by simp [acceptedBytes])

/-- An accepted byte is the next of those HOST had to send, if the others are what it has to send then. -/
theorem TurnEffect.accepts {s : State} {d : Byte} {p : HostProc} (hp : bytesToSend s.host = d :: bytesToSend p) :
    TurnEffect s (acceptByte d { s with host := p }) :=
  .sends d p _ hp (by simp [acceptedBytes])

/-- Everything a turn of HOST does with what it has to send. -/
theorem hostTurn_turnEffect {s t : State} (h : hostTurn s = .next t) : TurnEffect s t := by
  cases hp : s.host with
  | idle => rw [hostTurn_idle hp] at h; cases h; exact .refl s
  | enqueue d =>
    rw [hostTurn_enqueue hp, presentByte] at h
    cases h
    split
    · exact .waits _ s.trace (by rw [hp]) rfl
    · exact .accepts (by rw [hp]; rfl)
  | drain =>
    rw [hostTurn_drain hp] at h
    cases h
    split
    · exact .refl s
    · exact .drainReturns (by rw [hp]; rfl)
  | settle left name payload =>
    rw [hostTurn_settle hp] at h
    cases h
    exact .waits _ s.trace (by rw [hp]; split <;> rfl) rfl
  | sendName name payload =>
    cases name with
    | nil => rw [hostTurn_sendName_nil hp] at h; cases h
    | cons b rest =>
      rw [hostTurn_sendName_cons hp] at h
      cases h
      split
      · exact .refl s
      · exact .accepts (by rw [hp, bytesToSend_afterNameByte, bytesToSend, sentName_cons]; rfl)
  | sendPayload rest k len =>
    cases rest with
    | nil =>
      rw [hostTurn_sendPayload_nil hp] at h
      cases h
      exact .waits .sendDrain s.trace (by rw [hp]; rfl) rfl
    | cons b rest =>
      rw [hostTurn_sendPayload_cons hp] at h
      cases h
      have hb : bytesToSend s.host = b :: bytesToSend (afterPayloadByte rest k len) := by
        rw [hp, bytesToSend_afterPayloadByte]; rfl
      split
      · exact .refl s
      · rcases reportProgress_cases k len (acceptByte b { s with host := afterPayloadByte rest k len })
          with ⟨_, e⟩ | ⟨_, e⟩ <;> rw [e]
        · exact .sends b _ _ hb (by simp [acceptedBytes])
        · exact .accepts hb
  | sendDrain =>
    rw [hostTurn_sendDrain hp] at h
    cases h
    split
    · exact .refl s
    · exact .waits .idle _ (by rw [hp]; rfl) (by simp [acceptedBytes])

/-- Settles O59: both kinds of turn leave the block alone but for the tail of TXQ. -/
theorem turnPresentsNextByte : Obligations.TurnPresentsNextByte := by
  intro s t h
  cases hostTurn_turnEffect h with
  | waits p tr hp _ => exact ⟨.inl ⟨rfl, hp⟩, rfl⟩
  | sends d p tr hp ha => exact ⟨.inr ⟨d, hp, rfl, ha⟩, rfl⟩

theorem TurnEffect.cfg {s t : State} (h : TurnEffect s t) : t.cfg = s.cfg := by cases h <;> rfl

/-- What is accepted moves from what HOST has to send to the trace. -/
theorem TurnEffect.bytes {s t : State} (h : TurnEffect s t) :
    acceptedBytes t.trace ++ bytesToSend t.host = acceptedBytes s.trace ++ bytesToSend s.host := by
  cases h with
  | waits p tr hp ha => exact congrArg₂ (· ++ ·) ha hp
  | sends d p tr hp ha =>
    change acceptedBytes tr ++ bytesToSend p = _
    rw [ha, hp, List.append_assoc]
    rfl

/-- What is accepted moves from what HOST has to send to TXQ. -/
theorem TurnEffect.queue {s t : State} (h : TurnEffect s t) :
    t.txq ++ bytesToSend t.host = s.txq ++ bytesToSend s.host := by
  cases h with
  | waits p tr hp _ => exact congrArg (s.txq ++ ·) hp
  | sends d p tr hp _ =>
    change (s.txq ++ [d]) ++ bytesToSend p = _
    rw [hp, List.append_assoc]
    rfl

/-! ### How far SEND has come (R131 to R134) -/

/-- The reports due once `k` of `len` payload bytes have been enqueued (R133). -/
def reportsAfter (k len : Nat) : List Nat := (List.range (k / 128)).map fun j => 100 * (128 * (j + 1)) / len

theorem reportsAfter_succ_of_due {k : Nat} (len : Nat) (h : (k + 1) % 128 = 0) :
    reportsAfter (k + 1) len = reportsAfter k len ++ [100 * (k + 1) / len] := by
  have hq : (k + 1) / 128 = k / 128 + 1 := by omega
  have hk : 128 * (k / 128 + 1) = k + 1 := by omega
  rw [reportsAfter, hq, List.range_succ, List.map_append, List.map_singleton, hk, reportsAfter]

theorem reportsAfter_succ_of_not_due {k : Nat} (len : Nat) (h : (k + 1) % 128 ≠ 0) :
    reportsAfter (k + 1) len = reportsAfter k len := by
  have hq : (k + 1) / 128 = k / 128 := by omega
  rw [reportsAfter, hq, reportsAfter]

/-- The reports that a SEND of `len` payload bytes has made where it stands; idle, it has returned (R133, R134). -/
def reportsMade (len : Nat) : HostProc → List Nat
  | .settle _ _ _ | .sendName _ _ => []
  | .sendPayload _ k _ => reportsAfter k len
  | .sendDrain => reportsAfter len len
  | .idle => reportsAfter len len ++ [100]
  | .enqueue _ | .drain => []

/-- HOST stands somewhere in a SEND of `len` payload bytes, or has returned from it. -/
def InSendOf (len : Nat) : HostProc → Prop
  | .settle _ _ payload | .sendName _ payload => payload.length = len
  | .sendPayload rest k l => l = len ∧ k + rest.length = len
  | .sendDrain | .idle => True
  | .enqueue _ | .drain => False

/-- What holds all through a SEND that hands over `bytes`, of which the last `len` are payload, and its bytes and reports
come behind those that the trace showed before. -/
structure Sending (bytes : List Byte) (reports : List Nat) (len : Nat) (s : State) : Prop where
  source : s.cfg.source = Config.document
  inSend : InSendOf len s.host
  bytes : acceptedBytes s.trace ++ bytesToSend s.host = bytes
  reports : progressReports s.trace = reports ++ reportsMade len s.host
  returned : s.host = .idle → txBusy s = false ∧ .sent (.ok ()) ∈ s.trace

/-- A byte accepted is no report. -/
theorem progressReports_acceptByte (d : Byte) (s : State) :
    progressReports (acceptByte d s).trace = progressReports s.trace :=
  (progressReports_append _ _).trans (List.append_nil _)

theorem sendCompletes_trace (s : State) :
    (sendCompletes s).trace = s.trace ++ [.drained, .progress 100, .sent (.ok ())] := by
  simp [sendCompletes]

theorem reportProgress_host (k len : Nat) (s : State) : (reportProgress k len s).host = s.host := by
  rcases reportProgress_cases k len s with ⟨_, e⟩ | ⟨_, e⟩ <;> rw [e]

/-- With the report after the payload byte of offset `k`, if one is due, the reports are those of `k + 1` bytes. -/
theorem progressReports_reportProgress {k len : Nat} {s : State} {reports : List Nat}
    (hp : s.cfg.source = Config.document) (h : progressReports s.trace = reports ++ reportsAfter k len) :
    progressReports (reportProgress k len s).trace = reports ++ reportsAfter (k + 1) len := by
  have hstep : s.cfg.source.progressStep = 128 := congrArg Config.SourceValues.progressStep hp
  rcases reportProgress_cases k len s with ⟨hdue, e⟩ | ⟨hdue, e⟩ <;> rw [hstep] at hdue <;> rw [e]
  · rw [reportsAfter_succ_of_due len hdue, progressReports_append, h, List.append_assoc]
    rfl
  · rw [reportsAfter_succ_of_not_due len hdue, h]

/-- After a name byte SEND is in its name or its payload, with no report made. -/
theorem afterNameByte_stands (b : Byte) (rest payload : List Byte) :
    InSendOf payload.length (afterNameByte b rest payload) ∧
      reportsMade payload.length (afterNameByte b rest payload) = [] ∧ afterNameByte b rest payload ≠ .idle := by
  unfold afterNameByte
  split
  · exact ⟨⟨rfl, Nat.zero_add _⟩, rfl, nofun⟩
  · exact ⟨rfl, rfl, nofun⟩

/-- After the payload byte of offset `k` SEND is in its payload or at its drain, with the reports of `k + 1` bytes. -/
theorem afterPayloadByte_stands {rest : List Byte} {k len : Nat} (h : k + 1 + rest.length = len) :
    InSendOf len (afterPayloadByte rest k len) ∧
      reportsMade len (afterPayloadByte rest k len) = reportsAfter (k + 1) len ∧
      afterPayloadByte rest k len ≠ .idle := by
  unfold afterPayloadByte
  split
  · subst_vars
    exact ⟨trivial, rfl, nofun⟩
  · exact ⟨⟨rfl, h⟩, rfl, nofun⟩

section Sending

variable {bytes : List Byte} {reports : List Nat} {len : Nat} {s t : State}

/-- A turn that leaves SEND somewhere else, not yet returned. -/
theorem Sending.goesOn (h : Sending bytes reports len s) (ht : TurnEffect s t) (hin : InSendOf len t.host)
    (hr : progressReports t.trace = reports ++ reportsMade len t.host) (hne : t.host ≠ .idle) :
    Sending bytes reports len t where
  source := ht.cfg ▸ h.source
  inSend := hin
  bytes := ht.bytes.trans h.bytes
  reports := hr
  returned hi := absurd hi hne

/-- A turn of HOST keeps what holds all through SEND: row by row of the turn. -/
theorem Sending.turn (h : Sending bytes reports len s) (ht : hostTurn s = .next t) : Sending bytes reports len t := by
  have he := hostTurn_turnEffect ht
  have hin := h.inSend
  have hrep := h.reports
  cases hp : s.host with
  | idle => rw [hostTurn_idle hp] at ht; cases ht; exact h
  | enqueue d => rw [hp] at hin; exact hin.elim
  | drain => rw [hp] at hin; exact hin.elim
  | settle left name payload =>
    rw [hostTurn_settle hp] at ht
    rw [hp] at hin hrep
    cases ht
    exact h.goesOn he (by dsimp only; split <;> exact hin) (by dsimp only; split <;> exact hrep)
      (by dsimp only; split <;> nofun)
  | sendName name payload =>
    cases name with
    | nil => rw [hostTurn_sendName_nil hp] at ht; cases ht
    | cons b rest =>
      rw [hostTurn_sendName_cons hp] at ht
      rw [hp] at hin hrep
      cases ht
      split at he <;> rename_i hf
      · rwa [if_pos hf]
      · rw [if_neg hf]
        obtain rfl : payload.length = len := hin
        obtain ⟨hin', hmade, hne⟩ := afterNameByte_stands b rest payload
        refine h.goesOn he hin' ?_ hne
        rw [progressReports_acceptByte, acceptByte_host, hmade]
        exact hrep
  | sendPayload rest k l =>
    rw [hp] at hin hrep
    obtain ⟨rfl, hk⟩ := hin
    cases rest with
    | nil =>
      rw [hostTurn_sendPayload_nil hp] at ht
      cases ht
      obtain rfl : k = l := hk
      exact h.goesOn he trivial hrep nofun
    | cons b rest =>
      rw [hostTurn_sendPayload_cons hp] at ht
      cases ht
      split at he <;> rename_i hf
      · rwa [if_pos hf]
      · rw [if_neg hf]
        obtain ⟨hin', hmade, hne⟩ := afterPayloadByte_stands (rest := rest) (k := k) (len := l)
          (by rw [← hk, List.length_cons]; omega)
        refine h.goesOn he ?_ ?_ ?_ <;> rw [reportProgress_host]
        · exact hin'
        · rw [acceptByte_host, hmade]
          exact progressReports_reportProgress h.source ((progressReports_acceptByte b _).trans hrep)
        · exact hne
  | sendDrain =>
    rw [hostTurn_sendDrain hp] at ht
    rw [hp] at hrep
    cases ht
    split at he <;> rename_i hb
    · rwa [if_pos hb]
    · rw [if_neg hb]
      exact {
        source := h.source
        inSend := trivial
        bytes := he.bytes.trans h.bytes
        reports := by
          rw [sendCompletes_trace, progressReports_append, hrep, List.append_assoc]
          rfl
        returned := fun _ => ⟨Bool.eq_false_of_not_eq_true hb, by simp [sendCompletes_trace]⟩ }

end Sending

/-! ### The operations of the other agents while SEND goes on (R142) -/

/-- From `s` to `t` HOST stands where it stood, what is shown is neither a byte accepted nor a report, and a quiet
transmitter stays quiet. -/
structure SparesHost (s t : State) : Prop where
  cfg : t.cfg = s.cfg
  host : t.host = s.host
  trace : ∃ shown, t.trace = s.trace ++ shown ∧ acceptedBytes shown = [] ∧ progressReports shown = []
  quiet : txBusy s = false → txBusy t = false

theorem SparesHost.of_eq {s t : State} (hc : t.cfg = s.cfg) (hh : t.host = s.host) (ht : t.trace = s.trace)
    (hq : t.txq = s.txq) (hp : t.ph = s.ph) : SparesHost s t where
  cfg := hc
  host := hh
  trace := ⟨[], by rw [ht, List.append_nil], rfl, rfl⟩
  quiet := by simp only [txBusy, hq, hp, imp_self]

/-- A quiet engine stays so under the pulse tick (R173). -/
theorem tick_sparesHost (s : State) : SparesHost s (observe (.out (out (tick s))) (tick s)) where
  cfg := tick_cfg s
  host := tick_host s
  trace := ⟨[.out (out (tick s))], by simp, rfl, rfl⟩
  quiet hb := by
    obtain ⟨hq, hp⟩ := (txBusy_eq_false_iff s).1 hb
    rw [tick_idle_of_empty hp hq]
    exact hb

theorem exec_sparesHost {i : Instr} {s t : State} (h : exec i s = .next t) (hi : agentOf i ≠ .host) (hr : i ≠ .reset) :
    SparesHost s t := by
  cases exec_effect h with
  | host hh _ => exact absurd hh hi
  | ticks => exact tick_sparesHost s
  | resets => exact absurd rfl hr
  | _ => exact .of_eq (by simp) (by simp) (by simp) (by simp) (by simp)

section Moves

variable {bytes : List Byte} {reports : List Nat} {len : Nat}

theorem Sending.spared {s t : State} (h : Sending bytes reports len s) (ht : SparesHost s t) :
    Sending bytes reports len t := by
  obtain ⟨hcfg, hhost, ⟨shown, htrace, hbytes, hreports⟩, hquiet⟩ := ht
  exact {
    source := hcfg ▸ h.source
    inSend := hhost ▸ h.inSend
    bytes := by rw [htrace, hhost, acceptedBytes_append, hbytes, List.append_nil, h.bytes]
    reports := by rw [htrace, hhost, progressReports_append, hreports, List.append_nil, h.reports]
    returned := fun hidle => by
      obtain ⟨hb, hsent⟩ := h.returned (hhost.symm.trans hidle)
      exact ⟨hquiet hb, htrace ▸ List.mem_append_left _ hsent⟩ }

/-- Whatever the other agents do between the turns of HOST, what holds all through SEND goes on to hold. -/
theorem Sending.moves {moves : List Move} {s t : State} (h : Sending bytes reports len s)
    (hm : ∀ i, .op i ∈ moves → agentOf i ≠ .host ∧ i ≠ .reset) (ht : runMoves moves s = .next t) :
    Sending bytes reports len t := by
  induction moves generalizing s with
  | nil => cases ht; exact h
  | cons m rest ih =>
    obtain ⟨u, hu, hrest⟩ := andThen_eq_next ht
    refine ih (s := u) ?_ (fun i hi => hm i (List.mem_cons_of_mem _ hi)) hrest
    cases m with
    | turn => exact h.turn hu
    | op i =>
      obtain ⟨hi, hr⟩ := hm i List.mem_cons_self
      exact h.spared (exec_sparesHost hu hi hr)

end Moves

/-! ### How long SEND takes (R131 to R134) -/

/-- The turns a SEND needs until it stands at its drain, where TXQ has room for every byte. -/
def turnsLeft : HostProc → Nat
  | .settle left name payload => left + (sentName name).length + payload.length
  | .sendName name payload => (sentName name).length + payload.length
  | .sendPayload rest _ _ => rest.length
  | .idle | .enqueue _ | .drain | .sendDrain => 0

theorem turnsLeft_settleTurn {left : Nat} {name payload : List Byte} (h : 1 ≤ left) :
    turnsLeft (if 1 < left then .settle (left - 1) name payload else .sendName name payload) + 1 =
      turnsLeft (.settle left name payload) := by
  split <;> simp only [turnsLeft] <;> omega

theorem turnsLeft_afterNameByte (b : Byte) (rest payload : List Byte) :
    turnsLeft (afterNameByte b rest payload) + 1 = turnsLeft (.sendName (b :: rest) payload) := by
  unfold afterNameByte
  split <;> rename_i hb
  · simp only [turnsLeft, sentName_cons, if_pos hb, List.length_cons, List.length_nil]
    omega
  · simp only [turnsLeft, sentName_cons, if_neg hb, List.length_cons]
    omega

theorem turnsLeft_afterPayloadByte (b : Byte) (rest : List Byte) (k len : Nat) :
    turnsLeft (afterPayloadByte rest k len) + 1 = turnsLeft (.sendPayload (b :: rest) k len) := by
  unfold afterPayloadByte
  split
  · subst_vars; rfl
  · rfl

/-- A SEND with turns left has its payload, or the rest of it, to send. -/
theorem bytesToSend_ne_nil {p : HostProc} (ho : HostOk p) (hn : 0 < turnsLeft p) : bytesToSend p ≠ [] := by
  cases p with
  | settle left name payload =>
    obtain ⟨_, _, hpayload⟩ := ho
    exact List.append_ne_nil_of_right_ne_nil _ hpayload
  | sendName name payload =>
    obtain ⟨_, hpayload⟩ := ho
    exact List.append_ne_nil_of_right_ne_nil _ hpayload
  | sendPayload rest k len => exact ho.1
  | idle | enqueue d | drain | sendDrain => exact absurd hn (Nat.lt_irrefl 0)

/-- A SEND with no turn left, and not returned, stands at its drain. -/
theorem eq_sendDrain_of_turnsLeft {len : Nat} {p : HostProc} (hin : InSendOf len p) (ho : HostOk p) (hi : p ≠ .idle)
    (h0 : turnsLeft p = 0) : p = .sendDrain := by
  cases p with
  | settle left name payload =>
    obtain ⟨hleft, _⟩ := ho
    simp only [turnsLeft] at h0
    omega
  | sendName name payload =>
    obtain ⟨_, hpayload⟩ := ho
    exact absurd (List.length_eq_zero_iff.1 (Nat.eq_zero_of_add_eq_zero h0).2) hpayload
  | sendPayload rest k l => exact absurd (List.length_eq_zero_iff.1 h0) ho.1
  | idle => exact absurd rfl hi
  | enqueue d => exact hin.elim
  | drain => exact hin.elim
  | sendDrain => rfl

/-- A turn takes a SEND with turns left one turn further, or finds TXQ full. -/
theorem hostTurn_advances {s : State} (ho : HostOk s.host) (hn : 0 < turnsLeft s.host) :
    ∃ t, hostTurn s = .next t ∧ ((txFull s = true ∧ t = s) ∨ turnsLeft t.host + 1 = turnsLeft s.host) := by
  cases hp : s.host with
  | settle left name payload =>
    rw [hp] at ho
    obtain ⟨hleft, _⟩ := ho
    exact ⟨_, hostTurn_settle hp, .inr (turnsLeft_settleTurn hleft)⟩
  | sendName name payload =>
    rw [hp] at ho
    cases name with
    | nil =>
      obtain ⟨⟨_, hmem, _⟩, _⟩ := ho
      cases hmem
    | cons b rest =>
      refine ⟨_, hostTurn_sendName_cons hp, ?_⟩
      split
      · exact .inl ⟨‹_›, rfl⟩
      · exact .inr (turnsLeft_afterNameByte b rest payload)
  | sendPayload rest k len =>
    rw [hp] at ho
    cases rest with
    | nil => exact absurd rfl ho.1
    | cons b rest =>
      refine ⟨_, hostTurn_sendPayload_cons hp, ?_⟩
      split
      · exact .inl ⟨‹_›, rfl⟩
      · refine .inr ?_
        rw [reportProgress_host]
        exact turnsLeft_afterPayloadByte b rest k len
  | idle | enqueue d | drain | sendDrain => rw [hp] at hn; exact absurd hn (Nat.lt_irrefl 0)

theorem HostEffect.hostOk {s t : State} (h : HostEffect s t) (hl : s.cfg.Legal) (ho : HostOk s.host) :
    HostOk t.host := by
  cases h with
  | goesOn p tr hp => exact hp hl ho
  | sends d p tr room hp => exact hp hl ho
  | polls tr => exact (takeEvent_host s).symm ▸ ho

/-- At the drain HOST waits while TX_BUSY is 1 (R134). -/
theorem hostTurn_sendDrain_of_busy {s : State} (h : s.host = .sendDrain) (hb : txBusy s = true) :
    hostTurn s = .next s := by
  rw [hostTurn_sendDrain h, if_pos hb]

/-- At the drain SEND returns once TX_BUSY is 0 (R134). -/
theorem hostTurn_sendDrain_of_quiet {s : State} (h : s.host = .sendDrain) (hb : txBusy s = false) :
    hostTurn s = .next (sendCompletes s) := by
  rw [hostTurn_sendDrain h, hb]
  rfl

section Send

variable {bytes : List Byte} {reports : List Nat} {len : Nat} {s : State}

/-- A full TXQ of a legal machine keeps the transmitter busy. -/
theorem txBusy_of_txFull (hl : s.cfg.Legal) (hf : txFull s = true) : txBusy s = true := by
  obtain ⟨_, hdepth, _⟩ := hl
  exact (txBusy_iff s).2 (.inl (List.ne_nil_of_length_pos (((txFull_iff s).1 hf).symm ▸ hdepth)))

/-- With room in TXQ for all that is to be sent, the turns left bring SEND to its drain. -/
theorem Sending.runTurns_of_room (h : Sending bytes reports len s) (hl : s.cfg.Legal) (ho : HostOk s.host)
    (hi : s.host ≠ .idle) (hroom : s.txq.length + (bytesToSend s.host).length ≤ s.cfg.txqDepth) :
    ∃ u, runTurns (turnsLeft s.host) s = .next u ∧ Sending bytes reports len u ∧ u.host = .sendDrain ∧
      u.txq = s.txq ++ bytesToSend s.host := by
  induction hn : turnsLeft s.host generalizing s with
  | zero =>
    have hd := eq_sendDrain_of_turnsLeft h.inSend ho hi hn
    exact ⟨s, rfl, h, hd, by rw [hd]; exact (List.append_nil _).symm⟩
  | succ k ih =>
    have hpos : 0 < turnsLeft s.host := by omega
    obtain ⟨t, ht, ⟨hf, _⟩ | hleft⟩ := hostTurn_advances ho hpos
    · have hlen := List.length_pos_iff.2 (bytesToSend_ne_nil ho hpos)
      have hfull := (txFull_iff s).1 hf
      omega
    have he := hostTurn_turnEffect ht
    have hqueue := he.queue
    have hi' : t.host ≠ .idle := fun hidle => by
      obtain ⟨hq, _⟩ := (txBusy_eq_false_iff t).1 ((h.turn ht).returned hidle).1
      rw [hq, hidle] at hqueue
      exact bytesToSend_ne_nil ho hpos (List.append_eq_nil_iff.1 hqueue.symm).2
    obtain ⟨u, hu, hs, hd, hq⟩ := ih (h.turn ht) (he.cfg ▸ hl) ((hostTurn_effect ht).hostOk hl ho) hi'
      (by rwa [he.cfg, ← List.length_append, hqueue, List.length_append]) (by omega)
    exact ⟨u, by rw [runTurns, ht, andThen_next, hu], hs, hd, hq.trans hqueue⟩

/-- One turn of a SEND ends it, or takes it further, or waits for a busy transmitter. -/
theorem Sending.turn_progresses (h : Sending bytes reports len s) (hl : s.cfg.Legal) (ho : HostOk s.host)
    (hi : s.host ≠ .idle) : ∃ t, hostTurn s = .next t ∧
      (t.host = .idle ∨ turnsLeft t.host < turnsLeft s.host ∨ (t = s ∧ txBusy s = true)) := by
  rcases Nat.eq_zero_or_pos (turnsLeft s.host) with h0 | hpos
  · have hd := eq_sendDrain_of_turnsLeft h.inSend ho hi h0
    cases hb : txBusy s with
    | true => exact ⟨s, hostTurn_sendDrain_of_busy hd hb, .inr (.inr ⟨rfl, rfl⟩)⟩
    | false => exact ⟨_, hostTurn_sendDrain_of_quiet hd hb, .inl rfl⟩
  · obtain ⟨t, ht, ⟨hf, rfl⟩ | hleft⟩ := hostTurn_advances ho hpos
    · exact ⟨t, ht, .inr (.inr ⟨rfl, txBusy_of_txFull hl hf⟩)⟩
    · exact ⟨t, ht, .inr (.inl (by omega))⟩

/-- Rounds of a turn of HOST and a pulse tick. -/
def rounds (k : Nat) : List Move := (List.replicate k [.turn, .op .pteTick]).flatten

theorem runMoves_rounds_succ {s t : State} (ht : hostTurn s = .next t) (k : Nat) :
    runMoves (rounds (k + 1)) s = runMoves (rounds k) (afterTick t) := by
  change andThen (hostTurn s) _ = _
  rw [ht, andThen_next]
  rfl

/-- SEND returns if each turn of HOST is followed by a pulse tick, however small TXQ is: a round takes SEND further, or
the busy transmitter that it waits for gets nearer to its rest. -/
theorem Sending.returns (h : Sending bytes reports len s) (hl : s.cfg.Legal) (ho : HostOk s.host) :
    ∃ k u, runMoves (rounds k) s = .next u ∧ u.host = .idle := by
  induction hm : toLex (turnsLeft s.host, drainTicks s) using WellFoundedLT.induction generalizing s with
  | _ m ih =>
    subst hm
    by_cases hi : s.host = .idle
    · exact ⟨0, s, rfl, hi⟩
    obtain ⟨t, ht, hprog⟩ := h.turn_progresses hl ho hi
    have hlt : t.cfg.Legal := (hostTurn_turnEffect ht).cfg ▸ hl
    have hhost : (afterTick t).host = t.host := tick_host t
    have hless : t.host = .idle ∨
        toLex (turnsLeft (afterTick t).host, drainTicks (afterTick t)) < toLex (turnsLeft s.host, drainTicks s) := by
      rw [hhost, Prod.Lex.toLex_lt_toLex]
      refine hprog.imp_right (Or.imp_right ?_)
      rintro ⟨rfl, hb⟩
      have hticks : drainTicks (afterTick t) = drainTicks t - 1 := drainTicks_tick hl
      have hpos := drainTicks_of_busy hb
      exact ⟨rfl, by dsimp only; omega⟩
    rcases hless with hidle | hless
    · exact ⟨1, afterTick t, runMoves_rounds_succ ht 0, hhost.trans hidle⟩
    · obtain ⟨k, u, hu, hend⟩ := ih _ hless ((h.turn ht).spared (tick_sparesHost t)) ((tick_cfg t).symm ▸ hlt)
        (hhost ▸ (hostTurn_effect ht).hostOk hl ho) rfl
      exact ⟨k + 1, u, (runMoves_rounds_succ ht k).trans hu, hend⟩

end Send

/-- Settles O60: what holds all through SEND gives the bytes and the reports, at the drain and after it; the count of turns
left gives the end of SEND, and with the pulse ticks that a busy transmitter still needs also where TXQ is small. -/
theorem sendTransmitsNameThenImage : Obligations.SendTransmitsNameThenImage := by
  intro name buf n L s hl hi hb hn hv
  obtain ⟨hsource, _⟩ := id hl
  obtain ⟨_, _, _, hLn, _⟩ := (validateImage_eq_ok_iff hsource buf n L).1 hv
  have hlen : (buf.take L).length = L := List.length_take_of_le (hLn.trans hb.2)
  have hbegin := beginSend_of_ok (name := name) hv
  have ho : HostOk (.settle s.cfg.tSettle name (buf.take L)) := by
    have hok := (beginSend_effect hb hn).hostOk hl (hi ▸ trivial)
    rwa [hbegin] at hok
  have hs : Sending (acceptedBytes s.trace ++ sentName name ++ buf.take L) (progressReports s.trace) L
      { s with host := .settle s.cfg.tSettle name (buf.take L) } :=
    ⟨hsource, hlen, (List.append_assoc ..).symm, (List.append_nil _).symm, nofun⟩
  refine ⟨_, by rw [exec_send_of_idle hi hb hn, hbegin], fun hroom => ?_, fun moves u hm hu => ?_,
    fun _ => hs.returns hl ho, fun v => hostTurn_sendDrain_of_busy, fun v hd hq => ?_⟩
  · have hroom' : s.txq.length + (sentName name ++ buf.take L).length ≤ s.cfg.txqDepth := by
      rwa [List.length_append, hlen, ← Nat.add_assoc]
    obtain ⟨u, hu, hsu, hd, hq⟩ := hs.runTurns_of_room hl ho nofun hroom'
    have hturns : turnsLeft (.settle s.cfg.tSettle name (buf.take L)) = s.cfg.tSettle + (sentName name).length + L :=
      congrArg (_ + ·) hlen
    have hbytes := hsu.bytes
    have hreports := hsu.reports
    rw [hd] at hbytes hreports
    exact ⟨u, hturns ▸ hu, hq.trans (List.append_assoc ..).symm, hd, (List.append_nil _).symm.trans hbytes, hreports⟩
  · have hsu := hs.moves hm hu
    refine ⟨hsu.bytes, fun hidle => ?_⟩
    obtain ⟨hquiet, hsent⟩ := hsu.returned hidle
    have hreports := hsu.reports
    rw [hidle] at hreports
    exact ⟨hquiet, hsent, hreports.trans (List.append_assoc ..).symm⟩
  · rw [hostTurn_sendDrain_of_quiet hd hq]
    simp [sendCompletes, drainReturns, observe]

end Sys2Proof.Machine
end

section
/-! PROOFS. The laws common to all families (45_laws.md). The quiescent states (R173): the operations that leave them as they
are, and the run of operations that reaches input-quiescence from every state with the invariant. -/

namespace Sys2Proof.Machine

/-! ### What every operation keeps, a run of operations keeps (R172) -/

theorem KeptByParts.ops {P : State → Prop} (hP : KeptByParts P) {l : List Instr} {s t : State} (hs : P s)
    (h : runOps l s = .next t) : P t := by
  induction l generalizing s with
  | nil =>
    cases h
    exact hs
  | cons i l ih =>
    obtain ⟨u, hu, ht⟩ := andThen_eq_next h
    exact ih (hP.exec hs hu) ht

/-! ### Quiescent states stay as they are (R173) -/

theorem exec_pteTick_of_quiet {s : State} (h : TransmitQuiescent s) :
    exec .pteTick s = .next { s with trace := s.trace ++ [.out false] } := by
  obtain ⟨hq, hp⟩ := (txBusy_eq_false_iff s).1 h
  exact exec_pteTick_of_tick (tick_idle_of_empty hp hq) (out_eq_false (by simp [hp]))

/-- An agreeing tick in a closed window: the no-change arm of R106. -/
theorem debounce_of_closed {level : Bool} {s : State} (he : level = s.acc) (h0 : s.cnt = 0#4) : debounce level s = s := by
  rw [debounce_agrees he, ← h0]

theorem exec_of_no_sample {x : Sample} {i : Instr} {s : State} (hq : s.smpq = []) (hi : decode (.smp x) = .op i) :
    exec i s = .next s :=
  notEnabledChangesNothing.2.1 x i s hi (by simp [hq])

/-- A copy that has caught up stays where it is, whether or not the cursor has stood still (R123). -/
theorem syncCopy_of_caught_up {old c : Cursor} (h : old = c) (s : State) (past : List Cursor) :
    syncCopy s old c past = old := by
  subst h
  rcases syncCopy_cases s old old past with ⟨_, e⟩ | ⟨_, e⟩
  · exact e
  · rw [e, cursorAdvance_self]

theorem execSyncR_of_caught_up {s : State} (h : rptrSeen s = s.rptr) :
    ∃ n past, exec .syncR s = .next { s with draws := n, rptrPast := past } := by
  rcases Nat.eq_zero_or_pos s.cfg.evqLag with h0 | hlag
  · exact ⟨s.draws, s.rptrPast, if_pos h0⟩
  · rw [rptrSeen, if_neg (Nat.ne_of_gt hlag)] at h
    have hstep := execSyncR_of_lag hlag
    rw [syncCopy_of_caught_up h] at hstep
    exact ⟨_, _, hstep⟩

theorem execSyncW_of_caught_up {s : State} (h : wptrSeen s = s.wptr) :
    ∃ n past, exec .syncW s = .next { s with draws := n, wptrPast := past } := by
  rcases Nat.eq_zero_or_pos s.cfg.evqLag with h0 | hlag
  · exact ⟨s.draws, s.wptrPast, if_pos h0⟩
  · rw [wptrSeen, if_neg (Nat.ne_of_gt hlag)] at h
    have hstep := execSyncW_of_lag hlag
    rw [syncCopy_of_caught_up h] at hstep
    exact ⟨_, _, hstep⟩

/-! ### QDEC empties the sample queue (R99, R101) -/

/-- As many QDEC_STEPs as there are samples, each on the sample that is then the head, leave none. -/
theorem runOps_takes_samples (s : State) : ∃ t, runOps (s.smpq.map decodeSmp) s = .next t ∧ t.smpq = [] := by
  generalize hq : s.smpq = q
  induction q generalizing s with
  | nil => exact ⟨s, rfl, hq⟩
  | cons x q ih =>
    obtain ⟨t, ht, hempty⟩ := ih (publishSome (classify x).event { s with smpq := q, lastSample := x }) (by simp)
    refine ⟨t, ?_, hempty⟩
    rw [List.map_cons, runOps, exec_decodeSmp_of_head hq, andThen_next, ht]

/-! ### DEB settles on a constant level (R106, R107) -/

theorem runOps_debTick_of_closed {level : Bool} {s : State} (he : level = s.acc) (h0 : s.cnt = 0#4) (k : Nat) :
    runOps (List.replicate k (.debTick level)) s = .next s := by
  induction k with
  | zero => rfl
  | succ k ih => rw [List.replicate_succ, runOps_debTick_cons, debounce_of_closed he h0, ih]

/-- Every value of CNT that the invariant allows is one after some `j` disagreeing ticks (R38 item 5). -/
theorem exists_eq_cntAfter {c : BitVec 4} (h : c.toNat ≤ 10) : ∃ j ≤ 10, c = cntAfter j := by
  by_cases h0 : c = 0#4
  · exact ⟨0, by decide, h0⟩
  · have hpos : 1 ≤ c.toNat := by bv_omega
    refine ⟨11 - c.toNat, by omega, BitVec.eq_of_toNat_eq ?_⟩
    rw [toNat_cntAfter (by omega)]
    omega

/-- Eleven ticks of one level, from wherever the window stands, end with that level accepted and the window closed. -/
theorem runOps_debTicks_settle {s : State} (hs : Inv s) (level : Bool) :
    ∃ t, runOps (List.replicate 11 (.debTick level)) s = .next t ∧ t.smpq = s.smpq ∧ t.cnt = 0#4 ∧ level = t.acc := by
  obtain ⟨hsrc, _⟩ := id hs.legal
  by_cases he : level = s.acc
  · refine ⟨{ s with cnt := 0#4 }, ?_, rfl, rfl, he⟩
    rw [List.replicate_succ, runOps_debTick_cons, debounce_agrees he]
    exact runOps_debTick_of_closed (s := { s with cnt := 0#4 }) he rfl 10
  · have hcnt : s.cnt.toNat ≤ 10 := by simpa [hsrc] using hs.engine.cnt
    obtain ⟨j, hj, hwindow⟩ := exists_eq_cntAfter hcnt
    have hcounted : runOps (List.replicate (10 - j) (.debTick level)) s = .next { s with cnt := cntAfter 10 } := by
      rw [runOps_disagrees hsrc he hwindow (by omega), Nat.add_sub_cancel' hj]
    have hticks : List.replicate 11 (Instr.debTick level) =
        List.replicate (10 - j) (.debTick level) ++ .debTick level :: List.replicate j (.debTick level) := by
      rw [← List.replicate_succ, List.replicate_append_replicate]
      congr 1
      omega
    refine ⟨acceptLevel level { s with cnt := cntAfter 10 }, ?_, by simp [acceptLevel], acceptLevel_cnt .., by simp⟩
    rw [hticks, runOps_append_of_next hcounted, runOps_debTick_cons,
      debounce_accepts (s := { s with cnt := cntAfter 10 }) he rfl, runOps_debTick_of_closed (by simp) (by simp)]

/-! ### The copies catch up (R123) -/

/-- EVQ_LAG SYNC steps of each copy, the cursors standing still, leave both copies at their cursors. -/
theorem runOps_syncs_catch_up (s : State) : ∃ t,
    runOps (List.replicate s.cfg.evqLag .syncR ++ List.replicate s.cfg.evqLag .syncW) s = .next t ∧
      t.smpq = s.smpq ∧ t.cnt = s.cnt ∧ t.acc = s.acc ∧ rptrSeen t = t.rptr ∧ wptrSeen t = t.wptr := by
  rcases Nat.eq_zero_or_pos s.cfg.evqLag with h0 | hlag
  · refine ⟨s, ?_, rfl, rfl, rfl, if_pos h0, if_pos h0⟩
    rw [h0]
    rfl
  · obtain ⟨_, _, syncsR, _, _⟩ := syncMovesCopyForward s
    obtain ⟨past, hR⟩ := syncsR hlag
    obtain ⟨_, _, _, syncsW, _⟩ := syncMovesCopyForward
      { s with rptrP := s.rptr, rptrPast := past, draws := s.draws + s.cfg.evqLag }
    obtain ⟨_, hW⟩ := syncsW hlag
    have hne : s.cfg.evqLag ≠ 0 := Nat.ne_of_gt hlag
    exact ⟨_, (runOps_append_of_next hR).trans hW, rfl, rfl, rfl, if_neg hne, if_neg hne⟩

/-! ### Input-quiescence is reached (R173) -/

theorem reaches_inputQuiescent {s : State} (hs : Inv s) (level : Bool) : ∃ t,
    runOps (s.smpq.map decodeSmp ++ List.replicate (s.cfg.source.debTicks.toNat + 1) (.debTick level) ++
      List.replicate s.cfg.evqLag .syncR ++ List.replicate s.cfg.evqLag .syncW) s = .next t ∧ InputQuiescent level t := by
  obtain ⟨hsrc, _⟩ := id hs.legal
  have hwindow : s.cfg.source.debTicks.toNat + 1 = 11 := by rw [hsrc]; rfl
  obtain ⟨u, hu, hempty⟩ := runOps_takes_samples s
  obtain ⟨v, hv, hkept, hclosed, hlevel⟩ := runOps_debTicks_settle (inv_keptByParts.ops hs hu) level
  have hcfg : v.cfg = s.cfg := (cfg_keptByParts s.cfg).ops ((cfg_keptByParts s.cfg).ops rfl hu) hv
  obtain ⟨t, ht, hsmpq, hcnt, hacc, hrptr, hwptr⟩ := runOps_syncs_catch_up v
  refine ⟨t, ?_, hsmpq.trans (hkept.trans hempty), hcnt.trans hclosed, hlevel.trans hacc.symm, hrptr, hwptr⟩
  rw [hwindow, ← hcfg, List.append_assoc, List.append_assoc, runOps_append_of_next hu, runOps_append_of_next hv, ht]

/-- Settles O54: the stable states, operation by operation, and the way there: the samples, then the window, then the
copies. -/
theorem quiescentReachedAndStable : Obligations.QuiescentReachedAndStable := by
  intro level s
  refine ⟨exec_pteTick_of_quiet, fun hquiet => ?stable, fun hs => reaches_inputQuiescent hs level⟩
  case stable =>
    obtain ⟨hempty, hclosed, hlevel, hrptr, hwptr⟩ := hquiet
    refine ⟨?_, fun _ _ hi => exec_of_no_sample hempty hi, execSyncR_of_caught_up hrptr, execSyncW_of_caught_up hwptr⟩
    rw [exec_debTick, debounce_of_closed hlevel hclosed]

end Sys2Proof.Machine
end

section
/-! PROOFS. Exceptions (60_exceptions.md): there is no halted state (R138). An operation of the hardware gives a next state in
every state, enabled or not (log 8), and a turn of HOST does wherever a SEND still has its end marker to send (log 9). -/

namespace Sys2Proof.Machine

/-! ### The operations that act only where they are enabled, or only with a lag (R97, R123) -/

/-- A capture passes where the lines have not changed, and otherwise samples the change (log 8). -/
theorem exists_exec_smpCapture (a b : Bool) (s : State) : ∃ t, exec (.smpCapture a b) s = .next t := by
  by_cases h : phaseOf a b = s.phase
  · exact ⟨s, execSmpCapture_of_same h⟩
  · exact ⟨_, execSmpCapture_of_change h⟩

/-- With EVQ_LAG = 0 there is no copy to move, and the step passes (R31). -/
theorem exists_exec_syncR (s : State) : ∃ t, exec .syncR s = .next t := by
  rcases Nat.eq_zero_or_pos s.cfg.evqLag with h0 | hlag
  · exact ⟨s, if_pos h0⟩
  · exact ⟨_, execSyncR_of_lag hlag⟩

theorem exists_exec_syncW (s : State) : ∃ t, exec .syncW s = .next t := by
  rcases Nat.eq_zero_or_pos s.cfg.evqLag with h0 | hlag
  · exact ⟨s, if_pos h0⟩
  · exact ⟨_, execSyncW_of_lag hlag⟩

/-! ### Every operation of the hardware (R138) -/

theorem exists_exec_of_hardware {i : Instr} (hi : agentOf i ≠ .host) (s : State) : ∃ t, exec i s = .next t := by
  cases i with
  | pteTick => exact ⟨_, exec_pteTick_eq s⟩
  | smpCapture a b => exact exists_exec_smpCapture a b s
  | debTick level => exact ⟨_, exec_debTick level s⟩
  | debNotick x => exact ⟨s, rfl⟩
  | publishUp => exact ⟨_, exec_publishInstr .up s⟩
  | publishDown => exact ⟨_, exec_publishInstr .down s⟩
  | publishEnter => exact ⟨_, exec_publishInstr .enter s⟩
  | syncR => exact exists_exec_syncR s
  | syncW => exact exists_exec_syncW s
  | reset => exact ⟨resetBlock s, rfl⟩
  | enqueue | txNoreq | isDraining | drainWait | poll | noPoll | validate | send => exact absurd rfl hi
  | _ => exact ⟨qdecStep _ s, rfl⟩

/-! ### The turns of HOST (R78, R80, R130) -/

/-- Under the invariant a SEND that sends its name has the end marker still ahead of it, so the name has not run out. -/
theorem HostOk.ne_sendName_nil {p : HostProc} (h : HostOk p) (payload : List Byte) : p ≠ .sendName [] payload := by
  rintro rfl
  obtain ⟨⟨_, hmem, _⟩, _⟩ := h
  cases hmem

/-- The one position without a turn is a SEND whose name has run out before its end marker (X28). -/
theorem exists_hostTurn {s : State} (h : ∀ payload, s.host ≠ .sendName [] payload) : ∃ t, hostTurn s = .next t := by
  cases hp : s.host with
  | idle => exact ⟨s, hostTurn_idle hp⟩
  | enqueue d => exact ⟨_, hostTurn_enqueue hp⟩
  | drain => exact ⟨_, hostTurn_drain hp⟩
  | settle left name payload => exact ⟨_, hostTurn_settle hp⟩
  | sendName name payload =>
    cases name with
    | nil => exact absurd hp (h payload)
    | cons b rest => exact ⟨_, hostTurn_sendName_cons hp⟩
  | sendPayload rest k len =>
    cases rest with
    | nil => exact ⟨_, hostTurn_sendPayload_nil hp⟩
    | cons b rest => exact ⟨_, hostTurn_sendPayload_cons hp⟩
  | sendDrain => exact ⟨_, hostTurn_sendDrain hp⟩

/-- Settles O37: the hardware operation by operation, and HOST position by position. -/
theorem hardwareNeverStops : Obligations.HardwareNeverStops :=
  ⟨fun _ s hi => exists_exec_of_hardware hi s, fun _ hs => exists_hostTurn hs.host.ne_sendName_nil⟩

end Sys2Proof.Machine
end

section
/-! PROOFS. One HOST (93_implementation_defined.md X39): what a HOST that transmits answers to a second transmitter (log 10). -/

namespace Sys2Proof.Machine

/-- A HOST that is neither free, nor blocked on this byte, nor in a DRAIN_WAIT turns the byte away. -/
theorem exec_enqueue_of_transmitting {d : Byte} {s : State} (hi : s.host ≠ .idle) (hd : s.host ≠ .drain)
    (he : s.host ≠ .enqueue d) : exec (.enqueue d) s = .refused .hostBusy := by
  rcases execEnqueue_cases d s with ⟨hfree, _⟩ | ⟨hdrain, _⟩ | ⟨_, _, _, e⟩
  · exact absurd hfree (not_or.2 ⟨hi, he⟩)
  · exact absurd hdrain hd
  · exact e

/-- With its preconditions met, a SEND is turned away by every HOST that is neither free nor in a DRAIN_WAIT. -/
theorem exec_send_of_transmitting {name buf : List Byte} {n : Nat} {s : State} (hi : s.host ≠ .idle)
    (hd : s.host ≠ .drain) (hb : ImageOk s.cfg buf n) (hn : NameOk name) :
    exec (.send name buf n) s = .refused .hostBusy := by
  rcases execSend_cases name buf n s with
    ⟨hbad, _⟩ | ⟨_, hbad, _⟩ | ⟨_, _, hdrain, _⟩ | ⟨_, _, _, _, e⟩ | ⟨_, _, hidle, _⟩
  · exact absurd hb hbad
  · exact absurd hn hbad
  · exact absurd hdrain hd
  · exact e
  · exact absurd hidle hi

/-- Settles O17: ENQUEUE of another byte, and SEND. -/
theorem secondTransmitterRefused : Obligations.SecondTransmitterRefused := fun _ _ _ _ _ hi hd =>
  ⟨exec_enqueue_of_transmitting hi hd, exec_send_of_transmitting hi hd⟩

end Sys2Proof.Machine
end
